-- ==== Sys2Proof/Word.lean ====
section
/-!
DEFINITION. The word types of the FL4 and the update of one place of a fixed-size table.
-/

namespace Sys2Proof

/-- One byte. -/
abbrev Byte := BitVec 8

/-- A 16-bit band number (R53). -/
abbrev Band := BitVec 16

/-- A stream or lane number, 0 to 3; lane i serves stream i (R94). -/
abbrev StreamId := Fin 4

/-- A page of band memory, 0 to 63 (R4). -/
abbrev Page := Fin 64

/-- A place of the band table, 0 to 63 (1.3). -/
abbrev SlotId := Fin 64

/-- A frame sequence number on a lane, 0 to 3 (R99). -/
abbrev Seq := BitVec 2

/-- `v` with `x` at place `i`. -/
def putAt {α : Type} {n : Nat} (v : Vector α n) (i : Fin n) (x : α) : Vector α n :=
  v.set i.val x i.isLt

end Sys2Proof
end

