-- ==== Sys2Proof/Config.lean ====
section
/-!
DEFINITION. What the part fixes: sizes, limits and register values, each under the rule that gives it.
The spec leaves no value free, so no constant here is opaque (log 14).
-/

namespace Sys2Proof.Config

/-- Bytes of a page of band memory (chapter 1, "64 pages of 32 KiB"). -/
def pageBytes : Nat := 32768

/-- The most entries of a mark list (R24). -/
def markLimit : Nat := 8

/-- The most entries of the pending completion queue (R149). -/
def queueLimit : Nat := 16

/-- The most pages of all quotas together (R33). -/
def poolPages : Nat := 64

/-- The greatest piece of a host read (R168). -/
def readPiece : Nat := 256

/-- The read limit of the context read, 25,500 us, in units of 100 us (R161). -/
def contextLimit : Nat := 255

/-- The most credit a lane holds (R109). -/
def creditLimit : Nat := 15

/-- Where a lane counter stays (R136). -/
def counterLimit : Nat := 65535

/-- The IDENT register (R157). -/
def ident : BitVec 32 := 0x0F440101#32

/-- "None" in a completion entry's extra field (R175). -/
def noValue : BitVec 32 := 0xFFFFFFFF#32

/-- The kind code "no kind" (R174). -/
def noKind : Byte := 0xFF#8

end Sys2Proof.Config
end

