-- ==== Sys2Proof/Syntax.lean ====
section
/-!
DEFINITION. The commands of the FL4: one constructor per row of spec/opcode_table.json.

The table gives no row bits or operands; the operands below are what the event carries into the part
by the row's rule. An admin command carries none, since its operands are the bytes of the record the
admin unit fetched (R29); a hand-over carries none, since the arbiter chooses the stream (R63) and the
latch holds the record (R58).
-/

namespace Sys2Proof

/-- A step of the FL4 or an input event that reaches it. -/
inductive Instr where
  /-- POWER_ON (R3, R167). -/
  | powerOn
  /-- FUNDAMENTAL_RESET, on the pin or the link (R167). -/
  | fundamentalReset
  /-- FUNCTION_RESET: CONTROL written with RESET 1 and the given ATTACH bit (R158, R166). -/
  | functionReset (attach : Bool)
  /-- ATTACH: CONTROL written with RESET 0, ATTACH 1 (R158, R161). -/
  | attach
  /-- ATTACH_CANCEL: CONTROL written with RESET 0, ATTACH 0, of the row's part state ATTACHING (R163). -/
  | attachCancel
  /-- DETACH: CONTROL written with RESET 0, ATTACH 0, of the row's part states ATTACHED and FATAL (R164). -/
  | detach
  /-- DETACH_END (R165). -/
  | detachEnd
  /-- NOTIFY_ADMIN_TAIL: notify write with queue id 0 (R143). -/
  | notifyAdminTail (index : BitVec 16)
  /-- NOTIFY_STREAM_TAIL: notify write with queue id 1 + stream (R144). -/
  | notifyStreamTail (stream : StreamId) (index : BitVec 16)
  /-- NOTIFY_RELEASE: notify write with queue id 7 (R145). -/
  | notifyRelease (index : BitVec 16)
  /-- EVENT_CAUSE_WRITE (R155). -/
  | eventCauseWrite (value : BitVec 32)
  /-- EVENT_MASK_WRITE (R156). -/
  | eventMaskWrite (value : BitVec 32)
  /-- REGISTER_WRITE: a write of `size` bytes at an offset of the 4 KiB window (R157). -/
  | registerWrite (offset : BitVec 12) (size : Nat) (value : BitVec 32)
  /-- CONFIG_BUS_MASTER_ENABLE: the enables that become set (R168). -/
  | configBusMasterEnable (busMaster messages : Bool)
  /-- LINK_LOSS (R171). -/
  | linkLoss
  /-- READ_COMPLETION: bytes of request `request` from byte `offset` on, with good or error status (R169). -/
  | readCompletion (request offset : Nat) (data : List Byte) (good : Bool)
  /-- READ_LIMIT_EXPIRY of request `request` (R169). -/
  | readLimitExpiry (request : Nat)
  /-- ADMIN_FETCH (R29). -/
  | adminFetch
  /-- UNKNOWN_COMMAND (R30). -/
  | unknownCommand
  /-- CONFIGURE_STREAM (R33). -/
  | configureStream
  /-- START_STREAM (R36). -/
  | startStream
  /-- STOP_STREAM (R37). -/
  | stopStream
  /-- ABORT_STREAM (R46). -/
  | abortStream
  /-- RELEASE_STREAM (R35). -/
  | releaseStream
  /-- CLEAR_STREAM with action RESUME (R43). -/
  | clearStreamResume
  /-- CLEAR_STREAM with action SKIP_BAND (R44). -/
  | clearStreamSkipBand
  /-- CLEAR_LANE with action RESEND (R127). -/
  | clearLaneResend
  /-- CLEAR_LANE with action SKIP (R128). -/
  | clearLaneSkip
  /-- QUERY_STREAM (R52). -/
  | queryStream
  /-- RECORD_FETCH (R59). -/
  | recordFetch
  /-- RING_FAULT: hand-over of a FAULTED latch (R66). -/
  | ringFault
  /-- UNKNOWN_RECORD_KIND: hand-over of a record with verdict BAD_KIND (R67). -/
  | unknownRecordKind
  /-- Hand-over of an OPEN_BAND (R54). -/
  | openBand
  /-- Hand-over of a FILL_RECT (R80). -/
  | fillRect
  /-- Hand-over of a PLACE (R82). -/
  | place
  /-- Hand-over of a COPY_RECT (R86). -/
  | copyRect
  /-- Hand-over of a CLOSE_BAND (R10). -/
  | closeBand
  /-- Hand-over of a DISCARD_BAND (R12). -/
  | discardBand
  /-- Hand-over of a MARK (R24). -/
  | mark
  /-- ROW_WRITE of an initial fill, FILL_RECT or COPY_RECT (R78). -/
  | rowWrite
  /-- ENTRY_ADMISSION (R151). -/
  | entryAdmission
  /-- COMPLETION_ENTRY_WRITE (R147). -/
  | completionEntryWrite
  /-- COALESCE_TIMER_EXPIRY (R154). -/
  | coalesceTimerExpiry
  /-- DRAIN_AUTO_CLOSE of a stream (R11). -/
  | drainAutoClose (stream : StreamId)
  /-- DRAIN_END of a stream (R39). -/
  | drainEnd (stream : StreamId)
  /-- ABORT_STEP of a stream (R47 to R50). -/
  | abortStep (stream : StreamId)
  /-- SYNC_SEND of a lane (R106). -/
  | syncSend (lane : StreamId)
  /-- BAND_START of a lane (R112). -/
  | bandStart (lane : StreamId)
  /-- FRAME_SENT: a transmission of a lane ends (R102). -/
  | frameSent (lane : StreamId)
  /-- ACCEPT received on a lane (R101). -/
  | accept (lane : StreamId) (seq : Seq)
  /-- WAIT received on a lane (R103). -/
  | wait (lane : StreamId) (seq : Seq)
  /-- REFUSE received on a lane (R104). -/
  | refuse (lane : StreamId) (seq : Seq) (reason : BitVec 4)
  /-- CREDIT received on a lane; the grant is the whole byte (R109, R177). -/
  | credit (lane : StreamId) (grant : Byte)
  /-- BAD_FRAME: the bytes of a received frame that R97 calls bad. -/
  | badFrame (lane : StreamId) (bytes : List Byte)
  /-- REPLY_TIMER_EXPIRY of a lane (R102). -/
  | replyTimerExpiry (lane : StreamId)
  /-- WAIT_TIMER_EXPIRY of a lane (R103). -/
  | waitTimerExpiry (lane : StreamId)
  /-- STARVE_TIMER_EXPIRY of a lane (R122). -/
  | starveTimerExpiry (lane : StreamId)
  /-- LINK_UP (R172). -/
  | linkUp
  /-- CONFIG_BUS_MASTER_DISABLE: the enables that become clear (R168). -/
  | configBusMasterDisable (busMaster messages : Bool)
  /-- NOTIFY_UNUSED_QUEUE: notify write with an unused queue id (R142). -/
  | notifyUnusedQueue (queue : BitVec 8) (index : BitVec 16)
  deriving DecidableEq, Repr

end Sys2Proof
end

