-- ==== Sys2Proof/Decode.lean ====
section
/-!
DEFINITION. The decoder over the rows of spec/opcode_table.json that give bits. No row gives any: the FL4's
commands are events, not words (log 5).
-/

namespace Sys2Proof

/-- The command a word spells by the table's bits: none, since no row of the table has bits (log 5). -/
def decodeTableWord (_nbits _w : Nat) : Option Instr := none

end Sys2Proof
end

