-- ==== Sys2Proof/Machine/State.lean ====
section
/-!
DEFINITION. The state of the FL4, block by block, as INVENTORY.md's '## State' lists it, and the state after
power-on.
-/

namespace Sys2Proof.Machine

/-! ## Outcomes other than a next state -/

/-- Why the model would stop with a fault. There is no constructor: the spec gives every step of every row a
next state (FATAL is a part state, R171), so nothing raises a fault. -/
inductive Fault where
  deriving DecidableEq, Repr

/-- Why the model would refuse a command. -/
inductive Refusal where
  /-- Raised by `exec` alone, for a row that has no meaning yet. Safe: the model stops. No arm raises it. -/
  | notModelled (mnemonic : String)
  deriving DecidableEq, Repr

/-! ## System port -/

/-- The part state (R160). -/
inductive PartState where
  | detached | attaching | attached | detaching | fatal
  deriving DecidableEq, Repr

/-- The attach error codes, in the order of their numbers 0 to 8 (R162). -/
inductive AttachCode where
  | none | contextAlign | contextRead | reserved | adminRing | completionRing | readLimit | coalesce | cancelled
  deriving DecidableEq, Repr

/-- The fatal codes, in the order of their numbers 0 to 2 (R157). -/
inductive FatalCode where
  | none | adminReadFault | linkLoss
  deriving DecidableEq, Repr

/-- One bit for each of the four event causes: a set of causes, or a set of enables (R155, R156). -/
structure Causes where
  completion : Bool
  attach : Bool
  fatal : Bool
  notifyError : Bool
  deriving DecidableEq, Repr

/-- Who asked for a host read (8.6). -/
inductive Requester where
  | attach
  | admin
  | fetch
  /-- The raster unit: the piece of the row's range that starts `off` bytes in (R83, R168). -/
  | raster (off : Nat)
  deriving DecidableEq, Repr

/-- An issued read request (R168, R169). -/
structure ReadReq where
  /-- The name by which a completion names the request (log 7). -/
  id : Nat
  who : Requester
  addr : BitVec 64
  len : Nat
  /-- The limit it is timed against, in units of 100 us (R161, R169). -/
  limit : Nat
  /-- The bytes that have arrived, by place. -/
  got : List (Option Byte)
  /-- The link was lost after the issue: the request ends by expiry (R163, R164). -/
  lost : Bool
  deriving DecidableEq, Repr

/-- What has been asked of the link and not yet issued (R168, R170). -/
inductive LinkAsk where
  | read (who : Requester) (addr : BitVec 64) (len : Nat)
  /-- The write of the entry at the head of the pending completion queue (R147). -/
  | entry
  | snapshot (addr : BitVec 64) (bytes : List Byte)
  | message
  deriving DecidableEq, Repr

/-- What the part has put on the PCIe link (log 6). -/
inductive LinkOut where
  | readRequest (id : Nat) (addr : BitVec 64) (len : Nat)
  | write (addr : BitVec 64) (bytes : List Byte)
  | interrupt
  deriving DecidableEq, Repr

/-- The system port (chapter 8). -/
structure Port where
  part : PartState
  /-- ATTACHING, cancelled (R163). -/
  cancelled : Bool
  attachCode : AttachCode
  fatalCode : FatalCode
  contextLo : BitVec 32
  contextHi : BitVec 32
  cause : Causes
  mask : Causes
  /-- Bus mastering and interrupt messages enabled in the configuration space (R167, R168, R170). -/
  busMaster : Bool
  messages : Bool
  linkUp : Bool
  readLimit : Option Nat
  waiting : List LinkAsk
  outstanding : List ReadReq
  nextId : Nat
  sent : List LinkOut
  deriving DecidableEq, Repr

/-! ## Ring unit -/

/-- The completion statuses, in the order of their codes 0 to 13 (R146, R175). -/
inductive Status where
  | ok | skipped | badKind | badField | bandNumber | windowFull | bandNotOpen | ringFault | sourceFault
  | aborted | state | badStream | quotaSmall | poolOvercommit
  deriving DecidableEq, Repr

/-- A completion entry as its producer fixes it; the ring unit adds the phase (R146). -/
structure Entry where
  tag : BitVec 32
  source : Byte
  kind : Byte
  status : Status
  empty : Bool
  index : BitVec 16
  head : BitVec 16
  extra : BitVec 32
  deriving DecidableEq, Repr

/-- The admin ring or a stream ring (R139). -/
structure Ring where
  base : BitVec 64
  size : Nat
  head : Nat
  tail : Nat
  deriving DecidableEq, Repr

/-- The completion ring (R139, R148). -/
structure CompRing where
  base : BitVec 64
  size : Nat
  write : Nat
  release : Nat
  phase : Bool
  deriving DecidableEq, Repr

/-- Coalescing (R153). -/
structure Coalesce where
  count : Nat
  time : Nat
  counter : Nat
  timer : Bool
  deriving DecidableEq, Repr

/-- The ring unit (chapter 7). -/
structure RingUnit where
  admin : Option Ring
  comp : Option CompRing
  queue : List Entry
  coalesce : Option Coalesce
  laneNext : StreamId
  streamNext : StreamId
  deriving DecidableEq, Repr

/-! ## Admin unit and stream contexts -/

/-- The admin unit (R29). `fetched` and `awaiting` are sub-states of FETCHING and POSTING (log 3). -/
inductive AdminUnit where
  | idle
  | fetching
  /-- The 64 bytes of ring index `index` have returned and the command is taken; the next admin command row carries it out. `met`:
  a tail equal to `index` has been written since, and is the ring's once the head has moved (log 3). -/
  | fetched (rec : List Byte) (index : Nat) (met : Bool)
  /-- The snapshot's write waits; its completion is not yet due (R52, R170). `stream` is the stream the command names, if any. -/
  | awaiting (entry : Entry) (stream : Option StreamId)
  /-- The completion is offered. `stream` is the stream the command names, if any (log 18). -/
  | posting (entry : Entry) (stream : Option StreamId)
  deriving DecidableEq, Repr

/-- The stream states, in the order of their snapshot codes 0 to 5 (R28, R176). -/
inductive StreamState where
  | unconfigured | ready | running | draining | halted | aborting
  deriving DecidableEq, Repr

/-- The return states (R27). -/
inductive ReturnState where
  | running | draining
  deriving DecidableEq, Repr

/-- The configuration, but for the ring's base and size, which `Stream.ring` holds (R27, R33). -/
structure StreamCfg where
  width : Nat
  height : Nat
  depth : Nat
  quota : Nat
  window : Nat
  chunkSize : Nat
  replyLimit : Nat
  resendLimit : Nat
  waitInterval : Nat
  waitLimit : Nat
  starveLimit : Nat
  deriving DecidableEq, Repr

/-- The halt reasons, with snapshot codes 1 to 3 (R41, R176). -/
inductive HaltReason where
  | recordError | sourceFault | ringFault
  deriving DecidableEq, Repr

/-- The halt information (R41). -/
structure HaltInfo where
  reason : HaltReason
  index : Nat
  band : Option Band
  deriving DecidableEq, Repr

/-- A deferred STOP: its tag, ring index and head field (R31), and its status and extra once due (R39, R49). -/
structure DeferredStop where
  tag : BitVec 32
  index : Nat
  head : Nat
  due : Option (Status × Band)
  deriving DecidableEq, Repr

/-- A deferred ABORT; its extra is fixed at its admission (R49). -/
structure DeferredAbort where
  tag : BitVec 32
  index : Nat
  head : Nat
  due : Bool
  deriving DecidableEq, Repr

/-- The step of the abort procedure whose wait the stream stands at (R47 to R49). -/
inductive AbortAt where
  /-- Step 2: an op of the stream in flight. -/
  | op
  /-- Step 3: the stop order is given, the lane not yet known OFFLINE. -/
  | lane
  /-- Step 5: the marks' admissions. -/
  | marks
  /-- Step 6: the STOP's admission. -/
  | stop
  /-- Step 7: the ABORT's admission. -/
  | abort
  deriving DecidableEq, Repr

/-- What a mark of the list waits for (R25, R26). -/
inductive MarkState where
  /-- Its boundary. -/
  | boundary
  /-- The admission of its OK completion. -/
  | dueOk
  /-- The admission of its ABORTED completion. -/
  | dueAborted
  deriving DecidableEq, Repr

/-- An entry of a mark list (R24); `head` is the head field its completion carries (R73). -/
structure Mark where
  tag : BitVec 32
  index : Nat
  head : Nat
  boundary : Band
  st : MarkState
  deriving DecidableEq, Repr

/-- The verdict of the field checks (R57). -/
inductive Verdict where
  | good | badKind | badField
  deriving DecidableEq, Repr

/-- A record latch (R58). -/
inductive Latch where
  | empty
  | fetching (index : Nat)
  | held (index : Nat) (rec : List Byte) (verdict : Verdict)
  | faulted (index : Nat)
  deriving DecidableEq, Repr

/-- All the blocks keep of one stream: its context (stream control), its ring (ring unit), its latch (intake), its
numbering and mark list (band manager). -/
structure Stream where
  st : StreamState
  ret : Option ReturnState
  cfg : Option StreamCfg
  ring : Option Ring
  halt : Option HaltInfo
  skip : Option Band
  dstop : Option DeferredStop
  dabort : Option DeferredAbort
  abortAt : Option AbortAt
  nextOpen : Band
  nextEmit : Band
  marks : List Mark
  latch : Latch
  deriving DecidableEq, Repr

/-! ## Intake and raster unit -/

/-- The fetch arbiter's outstanding read (R59, R60). -/
structure FetchRead where
  stream : StreamId
  index : Nat
  dropped : Bool
  deriving DecidableEq, Repr

/-- Intake's arbiters (R59, R63). -/
structure Intake where
  fetchRead : Option FetchRead
  fetchNext : StreamId
  handNext : StreamId
  deriving DecidableEq, Repr

/-- The combine modes (R77). -/
inductive Combine where
  | replace | or | clear | xor
  deriving DecidableEq, Repr

/-- An area of dots: columns [c0, c1), rows [r0, r1) (R80). -/
structure Area where
  c0 : Nat
  c1 : Nat
  r0 : Nat
  r1 : Nat
  deriving DecidableEq, Repr

/-- The rectangle of a drawing record: x, y, w, h (R55, R76). -/
structure Rect where
  x : Int
  y : Int
  w : Nat
  h : Nat
  deriving DecidableEq, Repr

/-- The kind of an op with the parameters of its kind (R76); the destination rectangle of a COPY_RECT is `rect`. -/
inductive OpKind where
  | initialFill (value : BitVec 2)
  | fillRect (rect : Rect) (value : BitVec 2) (mode : Combine)
  | place (rect : Rect) (source : BitVec 64) (pitch srcDepth : Nat) (ink : BitVec 2) (mode : Combine)
  | copyRect (srcSlot : SlotId) (rect : Rect) (sx sy : Int) (mode : Combine)
  deriving DecidableEq, Repr

/-- The op record (R76). `entryHead` is the head field fixed at hand-over (R88), `entryKind` the record's kind code. -/
structure Op where
  kind : OpKind
  stream : StreamId
  index : Nat
  tag : BitVec 32
  notify : Bool
  entryKind : Byte
  entryHead : Nat
  slot : SlotId
  band : Band
  width : Nat
  height : Nat
  depth : Nat
  area : Area
  rowsDone : Nat
  fault : Bool
  /-- Source read requests issued and not yet finished; one that still waits for the link is not counted (R83, R168). -/
  readsOut : Nat
  /-- The bytes of the source row's range that have arrived (R83). -/
  rowData : List Byte
  deriving DecidableEq, Repr

/-- The raster unit (R75). -/
inductive RasterUnit where
  | free
  | holding (stream : StreamId) (entry : Entry)
  | executing (op : Op)
  | posting (op : Op) (entry : Entry)
  deriving DecidableEq, Repr

/-- The states of a slot that is not FREE (R8). -/
inductive SlotState where
  | opened | closed | sending
  deriving DecidableEq, Repr

/-- A slot that is not FREE (R8). -/
structure BandSlot where
  st : SlotState
  stream : StreamId
  band : Band
  pages : List Page
  blank : Bool
  damaged : Bool
  autoClosed : Bool
  notify : Bool
  tag : Option (BitVec 32)
  deriving DecidableEq, Repr

/-- The band manager's memory, page pool and band table; a FREE slot holds nothing (R4, R8). -/
structure Bands where
  /-- Band memory: address `page * 32768 + offset`, canonical form, an unlisted byte is 0 (R2, R3). -/
  mem : List Host.Cell
  free : List Page
  slots : Vector (Option BandSlot) 64
  deriving DecidableEq, Repr

/-! ## Lanes -/

/-- The lane states, in the order of their snapshot codes 0 to 6 (R110, R176). -/
inductive LaneState where
  | offline | syncing | idle | sending | cancelling | halted | lost
  deriving DecidableEq, Repr

/-- The content of a frame the FL4 sends, but for its seq (R96). The data of a CHUNK is read from band memory at each
transmission (R115). -/
inductive Frame where
  | sync (chunkSize : Nat)
  | header (band : Band) (lines lineBytes depth : Nat) (blank damaged autoClosed : Bool) (bandBytes : Nat)
  | chunk (index length : Nat)
  | trailer (count : Nat) (crc : BitVec 32)
  | cancel (band : Band)
  deriving DecidableEq, Repr

/-- The frame of the exchange (R99): exchange state REPLY, or PAUSED with the wait timer running; `timer` says whether the
reply timer runs (R102). The frame is outstanding once its transmission has begun; until then it waits for the transmission
under way to end (R94, R101). -/
structure Outstanding where
  frame : Frame
  seq : Seq
  begun : Bool
  paused : Bool
  timer : Bool
  deriving DecidableEq, Repr

/-- A transmission under way (R94): the whole frame, and whether its end starts the reply timer (R102). -/
structure Transmission where
  bytes : List Byte
  counts : Bool
  deriving DecidableEq, Repr

/-- The working parameters (R106). -/
structure LaneParams where
  chunkSize : Nat
  replyLimit : Nat
  resendLimit : Nat
  waitInterval : Nat
  waitLimit : Nat
  starveLimit : Nat
  deriving DecidableEq, Repr

/-- The phase of a band's emission (R110). -/
inductive Phase where
  | header | chunks | trailer
  deriving DecidableEq, Repr

/-- The sending progress (R112). `next` is the chunk last begun, 0 before the first, and the chunk count at the TRAILER (DESIGN
CHOICE, log 23). -/
structure Progress where
  band : Band
  slot : SlotId
  phase : Phase
  count : Nat
  next : Nat
  deriving DecidableEq, Repr

/-- A lane event (R134). -/
inductive LaneEvent where
  | bandSent (tag : BitVec 32) (band : Band)
  | starved (band : Band)
  | synced
  | halted (reason : BitVec 4) (band : Option Band)
  | lost (band : Band)
  deriving DecidableEq, Repr

/-- A head lane (chapters 5 and 6). -/
structure Lane where
  state : LaneState
  seq : Seq
  out : Option Outstanding
  resendCount : Nat
  waitCount : Nat
  credit : Nat
  params : Option LaneParams
  progress : Option Progress
  starved : Option Band
  stopPending : Bool
  latch : Option LaneEvent
  /-- The event in the latch stood there at a drain end: the STOP that drain end made due waits behind it (R132, log 18). -/
  beforeStop : Bool
  stale : Nat
  bad : Nat
  resent : Nat
  tx : Option Transmission
  /-- The frame of the exchange is to be transmitted when the transmission under way ends (R101). -/
  txWaiting : Bool
  deriving DecidableEq, Repr

/-! ## The whole part -/

/-- The state of the FL4 and the queue of commands that wait (log 1). -/
structure State where
  port : Port
  ring : RingUnit
  admin : AdminUnit
  streams : Vector Stream 4
  intake : Intake
  raster : RasterUnit
  bands : Bands
  lanes : Vector Lane 4
  pending : List Instr
  deriving DecidableEq, Repr

/-! ## Values after reset -/

/-- No cause. -/
def Causes.none : Causes := ⟨false, false, false, false⟩

/-- The ring unit without rings (table of 7.7). -/
def RingUnit.initial : RingUnit :=
  { admin := Option.none, comp := Option.none, queue := [], coalesce := Option.none, laneNext := 0, streamNext := 0 }

/-- An UNCONFIGURED stream with its initial values (R19, R24, R27, R58). -/
def Stream.initial : Stream :=
  { st := .unconfigured, ret := none, cfg := none, ring := none, halt := none, skip := none, dstop := none,
    dabort := none, abortAt := none, nextOpen := 0#16, nextEmit := 0#16, marks := [], latch := .empty }

/-- Intake's arbiters after a reset (table of 3.8). -/
def Intake.initial : Intake := { fetchRead := none, fetchNext := 0, handNext := 0 }

/-- A lane after a reset (tables of chapters 5 and 6). -/
def Lane.initial : Lane :=
  { state := .offline, seq := 0#2, out := none, resendCount := 0, waitCount := 0, credit := 0, params := none,
    progress := none, starved := none, stopPending := false, latch := none, beforeStop := false, stale := 0, bad := 0,
    resent := 0, tx := none, txWaiting := false }

/-- The page numbers 0 to 63 in ascending order (R4). -/
def allPages : List Page := List.finRange 64

/-- The system port after power-on (table of 8.8); the link has not trained yet (R167, log 8). -/
def Port.initial : Port :=
  { part := .detached, cancelled := false, attachCode := .none, fatalCode := .none, contextLo := 0#32,
    contextHi := 0#32, cause := Causes.none, mask := Causes.none, busMaster := false, messages := false,
    linkUp := false, readLimit := Option.none, waiting := [], outstanding := [], nextId := 0, sent := [] }

/-- The part right after power-on: band memory all zero, every block at its reset values (R3, R160, R167). -/
def State.reset : State :=
  { port := Port.initial
    ring := RingUnit.initial
    admin := .idle
    streams := Vector.replicate 4 Stream.initial
    intake := Intake.initial
    raster := .free
    bands := { mem := [], free := allPages, slots := Vector.replicate 64 none }
    lanes := Vector.replicate 4 Lane.initial
    pending := [] }

end Sys2Proof.Machine
end

