-- ==== Sys2Proof/Machine/Flags.lean ====
section
/-!
DEFINITION. Event causes, the event mask and the interrupt message (R155, R156, R170): the block's flags.
-/

namespace Sys2Proof.Machine

/-- The causes of EVENT_CAUSE or EVENT_MASK bits 3 to 0 (R157). -/
def Causes.ofWord (w : BitVec 32) : Causes :=
  ⟨w.getLsbD 0, w.getLsbD 1, w.getLsbD 2, w.getLsbD 3⟩

/-- The register word of a set of causes; bits not listed read 0 (R157). -/
def Causes.toWord (c : Causes) : BitVec 32 :=
  BitVec.ofNat 32 (c.completion.toNat + 2 * c.attach.toNat + 4 * c.fatal.toNat + 8 * c.notifyError.toNat)

/-- Both sets together. -/
def Causes.union (c d : Causes) : Causes :=
  ⟨c.completion || d.completion, c.attach || d.attach, c.fatal || d.fatal, c.notifyError || d.notifyError⟩

/-- The causes of `c` that are not in `d`: what writing 1 to those of `d` leaves (R155). -/
def Causes.without (c d : Causes) : Causes :=
  ⟨c.completion && !d.completion, c.attach && !d.attach, c.fatal && !d.fatal, c.notifyError && !d.notifyError⟩

/-- Whether some cause is in both sets: set and enabled (R156). -/
def Causes.meets (c d : Causes) : Bool :=
  (c.completion && d.completion) || (c.attach && d.attach) || (c.fatal && d.fatal) || (c.notifyError && d.notifyError)

/-- COMPLETION alone. -/
def Causes.ofCompletion : Causes := ⟨true, false, false, false⟩
/-- ATTACH alone. -/
def Causes.ofAttach : Causes := ⟨false, true, false, false⟩
/-- FATAL alone. -/
def Causes.ofFatal : Causes := ⟨false, false, true, false⟩
/-- NOTIFY_ERROR alone. -/
def Causes.ofNotifyError : Causes := ⟨false, false, false, true⟩

/-- Whether the link takes requests and posted writes now (R168, R170; for the link, log 8). -/
def Port.canIssue (p : Port) : Bool := p.busMaster && p.linkUp

/-- An interrupt message is asked for (R170): not sent, then or later, in DETACHING, while messages are disabled, or
while the link is down; waiting while bus mastering is disabled; else sent. -/
def Port.askMessage (p : Port) : Port :=
  if p.part = .detaching ∨ p.messages = false ∨ p.linkUp = false then p
  else if p.busMaster then { p with sent := p.sent ++ [.interrupt] }
  else { p with waiting := p.waiting ++ [.message] }

/-- New causes and enables; one message when the set of set-and-enabled causes becomes non-empty (R156). -/
def Port.setEvents (p : Port) (cause mask : Causes) : Port :=
  let q := { p with cause := cause, mask := mask }
  if p.cause.meets p.mask = false ∧ cause.meets mask = true then q.askMessage else q

/-- Causes become set (R155). -/
def Port.raise (p : Port) (c : Causes) : Port := p.setEvents (p.cause.union c) p.mask

/-- Causes become set. -/
def State.raise (c : Causes) (s : State) : State := { s with port := s.port.raise c }

/-- An entry sets COMPLETION at once when it reports anything but OK and SKIPPED, or is LANE_HALTED or LANE_LOST (R153). -/
def Entry.urgent (e : Entry) : Bool :=
  (e.status != .ok && e.status != .skipped) || e.kind == 0x23#8 || e.kind == 0x24#8

/-- Coalescing of one written entry (R153). -/
def State.countEntry (e : Entry) (s : State) : State :=
  match s.ring.coalesce with
  | none => s
  | some c =>
    if s.port.cause.completion then s
    else if e.urgent || c.counter + 1 == c.count then
      { s with ring := { s.ring with coalesce := some { c with counter := 0, timer := false } } }.raise .ofCompletion
    else
      { s with ring := { s.ring with coalesce := some { c with
          counter := c.counter + 1
          timer := c.timer || (c.counter == 0 && c.time != 0) } } }

end Sys2Proof.Machine
end

