-- ==== Sys2Proof/Machine/Memory.lean ====
section
/-!
DEFINITION. Band memory: a list of (address, byte) pairs in one canonical form, and where a band's bytes stand in it.
-/

namespace Sys2Proof.Machine

/-- The byte at an address; an unlisted address reads 0, since power-on writes zero everywhere (R3). -/
def Memory.read : List Host.Cell → Nat → Byte
  | [], _ => 0#8
  | c :: m, a => if c.1 = a then c.2 else Memory.read m a

/-- Memory with byte `b` at address `a`; writing 0 removes the entry, so that the canonical form is kept. -/
def Memory.write : List Host.Cell → Nat → Byte → List Host.Cell
  | [], a, b => if b = 0#8 then [] else [(a, b)]
  | c :: m, a, b =>
    if c.1 < a then c :: Memory.write m a b
    else if c.1 = a then (if b = 0#8 then m else (a, b) :: m)
    else if b = 0#8 then c :: m else (a, b) :: c :: m

/-- Several bytes written one after another. -/
def Memory.writeAll (m : List Host.Cell) (cells : List Host.Cell) : List Host.Cell :=
  cells.foldl (fun m c => Memory.write m c.1 c.2) m

/-- The canonical form: addresses strictly rising, and no entry equal to what an unlisted address reads as. -/
abbrev Memory.wf (m : List Host.Cell) : Prop :=
  m.Pairwise (fun c d => c.1 < d.1) ∧ ∀ c ∈ m, c.2 ≠ 0#8

/-- The address of byte offset `b` of a band with the given page list (R2); none past the page list's end. -/
def bandAddr (pages : List Page) (b : Nat) : Option Nat :=
  (pages[b / Config.pageBytes]?).map fun p => p.val * Config.pageBytes + b % Config.pageBytes

/-- The byte at offset `b` of a band (R2). -/
def bandByte (m : List Host.Cell) (pages : List Page) (b : Nat) : Byte :=
  match bandAddr pages b with
  | some a => Memory.read m a
  | none => 0#8

/-- `n` bytes of a band from offset `b` on, in emission order (R2, R115). -/
def bandRange (m : List Host.Cell) (pages : List Page) (b n : Nat) : List Byte :=
  (List.range n).map fun k => bandByte m pages (b + k)

end Sys2Proof.Machine
end

