-- ==== Sys2Proof/Machine/Bytes.lean ====
section
/-!
DEFINITION. Byte order, the two checks of the lane link, and the frames a head sends.
-/

namespace Sys2Proof.Machine

/-! ## Fields of a structure in host memory (R173) -/

/-- The byte at offset `i`. -/
def byteAt (bs : List Byte) (i : Nat) : Byte := bs.getD i 0#8

/-- A little-endian 16-bit field (R173). -/
def le16 (bs : List Byte) (i : Nat) : BitVec 16 := byteAt bs (i + 1) ++ byteAt bs i

/-- A little-endian 32-bit field (R173). -/
def le32 (bs : List Byte) (i : Nat) : BitVec 32 := le16 bs (i + 2) ++ le16 bs i

/-- A little-endian 64-bit field (R173). -/
def le64 (bs : List Byte) (i : Nat) : BitVec 64 := le32 bs (i + 4) ++ le32 bs i

/-- A signed 32-bit field, "s32" of chapter 9. -/
def s32 (bs : List Byte) (i : Nat) : Int := (le32 bs i).toInt

/-- Whether the `n` bytes from offset `lo` on are zero (reserved bytes, R173). -/
def zeroBytes (bs : List Byte) (lo n : Nat) : Bool :=
  (List.range n).all fun k => byteAt bs (lo + k) == 0#8

/-- The `n` bytes of a number, least significant first (R173). -/
def leBytes (n x : Nat) : List Byte :=
  (List.range n).map fun k => BitVec.ofNat 8 (x >>> (8 * k))

/-- The `n` bytes of a number, most significant first (R177). -/
def beBytes (n x : Nat) : List Byte := (leBytes n x).reverse

/-! ## The two checks of the link -/

/-- One bit of the CRC-16 of R95: polynomial 0x1021, most significant bit first. -/
def crc16Bit (r : BitVec 16) : BitVec 16 :=
  if r.msb then (r <<< 1) ^^^ 0x1021#16 else r <<< 1

/-- One byte of the CRC-16 of R95. -/
def crc16Byte (r : BitVec 16) (b : Byte) : BitVec 16 :=
  Nat.repeat crc16Bit 8 (r ^^^ (b.setWidth 16 <<< 8))

/-- The check that ends a lane frame (R95): the register starts at 0, the result is not complemented. -/
def crc16 (bs : List Byte) : BitVec 16 := bs.foldl crc16Byte 0#16

/-- One bit of the band CRC-32 of R98: reflected polynomial 0xEDB88320, least significant bit first. -/
def crc32Bit (r : BitVec 32) : BitVec 32 :=
  if r.getLsbD 0 then (r >>> 1) ^^^ 0xEDB88320#32 else r >>> 1

/-- One byte of the band CRC-32 of R98. -/
def crc32Byte (r : BitVec 32) (b : Byte) : BitVec 32 :=
  Nat.repeat crc32Bit 8 (r ^^^ b.setWidth 32)

/-- The band CRC-32 (R98): the register starts at all ones and the result is complemented. -/
def crc32 (bs : List Byte) : BitVec 32 := ~~~ (bs.foldl crc32Byte 0xFFFFFFFF#32)

/-- A frame's bytes with its check, most significant byte first (R95, R177). -/
def withCheck (body : List Byte) : List Byte := body ++ beBytes 2 (crc16 body).toNat

/-! ## Frames a head sends (R97, R177) -/

/-- A good frame of the head. -/
inductive HeadFrame where
  /-- ACCEPT of a seq. -/
  | accept (seq : Seq)
  /-- WAIT of a seq. -/
  | wait (seq : Seq)
  /-- REFUSE of a seq with its reason. -/
  | refuse (seq : Seq) (reason : BitVec 4)
  /-- CREDIT with its grant, the whole byte. -/
  | credit (grant : Byte)
  deriving DecidableEq, Repr

/-- The fields of a frame whose check matches (R97, R177): reserved bits are ignored, a REFUSE reason above 15
and a CREDIT grant of 0 are bad, and so is a length other than the type's. -/
def headFields (bs : List Byte) : Option HeadFrame :=
  let seq : Seq := (byteAt bs 1).setWidth 2
  if byteAt bs 0 = 0x81#8 ∧ bs.length = 4 then some (.accept seq)
  else if byteAt bs 0 = 0x82#8 ∧ bs.length = 4 then some (.wait seq)
  else if byteAt bs 0 = 0x83#8 ∧ bs.length = 5 ∧ (byteAt bs 2).toNat ≤ 15 then
    some (.refuse seq ((byteAt bs 2).setWidth 4))
  else if byteAt bs 0 = 0x84#8 ∧ bs.length = 4 ∧ byteAt bs 1 ≠ 0#8 then some (.credit (byteAt bs 1))
  else none

/-- The frame that received bytes carry, or none where R97 calls the frame bad. -/
def parseHead (bs : List Byte) : Option HeadFrame :=
  if withCheck (bs.take (bs.length - 2)) = bs then headFields bs else none

end Sys2Proof.Machine
end

