-- ==== Sys2Proof/Machine/Operands.lean ====
section
/-!
DEFINITION. Operand forms: the fields of the context block, of admin and stream records, their checks, and the
bytes of a completion entry (chapter 9).
-/

namespace Sys2Proof.Machine

/-! ## Geometry (R1) -/

/-- Line bytes, W × D / 8 (R1). -/
def StreamCfg.lineBytes (c : StreamCfg) : Nat := c.width * c.depth / 8

/-- Band bytes, line bytes × H (R1). -/
def StreamCfg.bandBytes (c : StreamCfg) : Nat := c.lineBytes * c.height

/-- Pages per band, P (R1). -/
def StreamCfg.pages (c : StreamCfg) : Nat := (c.bandBytes + (Config.pageBytes - 1)) / Config.pageBytes

/-- The chunk count of a band with content (R112). -/
def chunkCount (bandBytes chunkSize : Nat) : Nat := (bandBytes + (chunkSize - 1)) / chunkSize

/-- The ring sizes: powers of two from 16 to 4096 (R33, R162). -/
def ringSizeOk (n : Nat) : Bool :=
  n == 16 || n == 32 || n == 64 || n == 128 || n == 256 || n == 512 || n == 1024 || n == 2048 || n == 4096

/-- A host address that is a multiple of 64. -/
def aligned64 (a : BitVec 64) : Bool := a.toNat % 64 == 0

/-! ## The context block (9.2, R162) -/

/-- The first failing check of the context block, or NONE (R162). -/
def contextCode (bs : List Byte) : AttachCode :=
  if !zeroBytes bs 23 105 then .reserved
  else if !(aligned64 (le64 bs 0) && ringSizeOk (le16 bs 16).toNat) then .adminRing
  else if !(aligned64 (le64 bs 8) && ringSizeOk (le16 bs 18).toNat) then .completionRing
  else if byteAt bs 20 == 0#8 then .readLimit
  else if byteAt bs 21 == 0#8 || (byteAt bs 21).toNat > 64 then .coalesce
  else .none

/-- The ring unit as a valid context block sets it (R139, R148, R153, R162). -/
def contextRings (bs : List Byte) : RingUnit :=
  { RingUnit.initial with
    admin := some { base := le64 bs 0, size := (le16 bs 16).toNat, head := 0, tail := 0 }
    comp := some { base := le64 bs 8, size := (le16 bs 18).toNat, write := 0, release := 0, phase := true }
    coalesce := some { count := (byteAt bs 21).toNat, time := (byteAt bs 22).toNat, counter := 0, timer := false } }

/-! ## Admin records (9.3) -/

/-- The admin commands with their codes (9.3). -/
inductive Command where
  | configure | start | stop | abort | release | clearStream | clearLane | query
  deriving DecidableEq, Repr

/-- The command of a code, or none (R30, R174). -/
def Command.ofCode (c : Byte) : Option Command :=
  match c.toNat with
  | 0x10 => some .configure
  | 0x11 => some .start
  | 0x12 => some .stop
  | 0x13 => some .abort
  | 0x14 => some .release
  | 0x15 => some .clearStream
  | 0x16 => some .clearLane
  | 0x17 => some .query
  | _ => none

/-- The reserved bytes of a command are zero (9.3, R173). -/
def commandReservedOk (c : Command) (bs : List Byte) : Bool :=
  zeroBytes bs 2 2 && match c with
  | .configure => zeroBytes bs 25 1 && zeroBytes bs 33 1 && zeroBytes bs 36 28
  | .start => zeroBytes bs 10 54
  | .stop => zeroBytes bs 8 56
  | .abort => zeroBytes bs 8 56
  | .release => zeroBytes bs 8 56
  | .clearStream => zeroBytes bs 9 55
  | .clearLane => zeroBytes bs 9 55
  | .query => zeroBytes bs 16 48

/-- The tag of an admin or stream record. -/
def recTag (bs : List Byte) : BitVec 32 := le32 bs 4

/-- The configuration that a CONFIGURE_STREAM carries (9.3). -/
def configOf (bs : List Byte) : StreamCfg :=
  { width := (le16 bs 18).toNat, height := (le16 bs 20).toNat, depth := (byteAt bs 22).toNat
    quota := (byteAt bs 23).toNat, window := (byteAt bs 24).toNat, chunkSize := (le16 bs 26).toNat
    replyLimit := (le16 bs 28).toNat, resendLimit := (byteAt bs 30).toNat, waitInterval := (byteAt bs 31).toNat
    waitLimit := (byteAt bs 32).toNat, starveLimit := (le16 bs 34).toNat }

/-- The ring that a CONFIGURE_STREAM carries, with head and tail 0 (R34). -/
def configRing (bs : List Byte) : Ring :=
  { base := le64 bs 8, size := (le16 bs 16).toNat, head := 0, tail := 0 }

/-- Every field of a CONFIGURE_STREAM is in the range of R33's table. -/
def configInRange (r : Ring) (c : StreamCfg) : Bool :=
  aligned64 r.base && ringSizeOk r.size &&
  (decide (32 ≤ c.width ∧ c.width ≤ 16384) && c.width % 32 == 0) &&
  decide (1 ≤ c.height ∧ c.height ≤ 256) &&
  (c.depth == 1 || c.depth == 2) &&
  decide (1 ≤ c.quota ∧ c.quota ≤ 64) &&
  decide (1 ≤ c.window ∧ c.window ≤ 4) &&
  (c.chunkSize == 256 || c.chunkSize == 512 || c.chunkSize == 1024) &&
  decide (2 ≤ c.replyLimit ∧ c.replyLimit ≤ 500) &&
  decide (1 ≤ c.resendLimit ∧ c.resendLimit ≤ 15) &&
  decide (1 ≤ c.waitInterval ∧ c.waitInterval ≤ 255) &&
  decide (1 ≤ c.waitLimit ∧ c.waitLimit ≤ 255) &&
  decide (c.starveLimit ≤ 10000)

/-! ## Stream records (9.4) -/

/-- The stream record kinds (R53). -/
inductive RecKind where
  | openBand | fillRect | place | copyRect | closeBand | discardBand | mark
  deriving DecidableEq, Repr

/-- The kind of a code, or none (R57, R174). -/
def RecKind.ofCode (c : Byte) : Option RecKind :=
  match c.toNat with
  | 0x01 => some .openBand
  | 0x02 => some .fillRect
  | 0x03 => some .place
  | 0x04 => some .copyRect
  | 0x05 => some .closeBand
  | 0x06 => some .discardBand
  | 0x07 => some .mark
  | _ => none

/-- The kind code of a record. -/
def recCode (bs : List Byte) : Byte := byteAt bs 0

/-- The NOTIFY flag (9.4). -/
def recNotify (bs : List Byte) : Bool := (byteAt bs 1).getLsbD 0

/-- The band number of a record (9.4). -/
def recBand (bs : List Byte) : Band := le16 bs 2

/-- The source band of a COPY_RECT (9.4). -/
def recSourceBand (bs : List Byte) : Band := le16 bs 22

/-- The scope EMITTED of a MARK with a good verdict (9.4). -/
def recEmitted (bs : List Byte) : Bool := byteAt bs 8 == 1#8

/-- The fill value of an OPEN_BAND, absent when its presence byte is 0 (R54). -/
def recFill (bs : List Byte) : Option (BitVec 2) :=
  if byteAt bs 8 = 1#8 then some ((byteAt bs 9).setWidth 2) else none

/-- The combine mode of a code, or none (9.4, R174). -/
def Combine.ofCode (c : Byte) : Option Combine :=
  match c.toNat with
  | 0 => some .replace
  | 1 => some .or
  | 2 => some .clear
  | 3 => some .xor
  | _ => none

/-- The combine mode of a record with a good verdict. -/
def recCombine (bs : List Byte) : Combine := (Combine.ofCode (byteAt bs 21)).getD .replace

/-- The value of a FILL_RECT, or the ink value of a PLACE (9.4). -/
def recValue (bs : List Byte) : BitVec 2 := (byteAt bs 20).setWidth 2

/-- The fields of a drawing record (R55, 9.4). -/
def recX (bs : List Byte) : Int := s32 bs 8

/-- y of a drawing record. -/
def recY (bs : List Byte) : Int := s32 bs 12

/-- w of a drawing record. -/
def recW (bs : List Byte) : Nat := (le16 bs 16).toNat

/-- h of a drawing record. -/
def recH (bs : List Byte) : Nat := (le16 bs 18).toNat

/-- The rectangle of a drawing record (R55, R76). -/
def recRect (bs : List Byte) : Rect := { x := recX bs, y := recY bs, w := recW bs, h := recH bs }

/-- The source depth of a PLACE. -/
def recSourceDepth (bs : List Byte) : Nat := (byteAt bs 22).toNat

/-- The source pitch of a PLACE, in bytes. -/
def recPitch (bs : List Byte) : Nat := (le16 bs 24).toNat

/-- The source address of a PLACE. -/
def recSource (bs : List Byte) : BitVec 64 := le64 bs 32

/-- sx of a COPY_RECT. -/
def recSx (bs : List Byte) : Int := s32 bs 24

/-- sy of a COPY_RECT. -/
def recSy (bs : List Byte) : Int := s32 bs 28

/-- A dot value of depth `d` (R57): at most 2^d − 1. -/
def dotValueOk (d : Nat) (b : Byte) : Bool := decide (b.toNat < 2 ^ d)

/-- The reserved bytes of a record are zero (9.4, R57). -/
def recordReservedOk (k : RecKind) (bs : List Byte) : Bool :=
  match k with
  | .openBand => zeroBytes bs 10 54
  | .fillRect => zeroBytes bs 22 42
  | .place => zeroBytes bs 23 1 && zeroBytes bs 26 6 && zeroBytes bs 40 24
  | .copyRect => zeroBytes bs 20 1 && zeroBytes bs 32 32
  | .closeBand => zeroBytes bs 8 56
  | .discardBand => zeroBytes bs 8 56
  | .mark => zeroBytes bs 2 2 && zeroBytes bs 9 55

/-- The kind's own field checks (R57's table). -/
def recordFieldsOk (d : Nat) (k : RecKind) (bs : List Byte) : Bool :=
  match k with
  | .openBand => byteAt bs 8 == 0#8 || (byteAt bs 8 == 1#8 && dotValueOk d (byteAt bs 9))
  | .fillRect => (Combine.ofCode (byteAt bs 21)).isSome && dotValueOk d (byteAt bs 20)
  | .place =>
    (Combine.ofCode (byteAt bs 21)).isSome && ((byteAt bs 22).toNat == 1 || (byteAt bs 22).toNat == d) &&
      le16 bs 24 != 0#16 && dotValueOk d (byteAt bs 20)
  | .copyRect => (Combine.ofCode (byteAt bs 21)).isSome
  | .closeBand => true
  | .discardBand => true
  | .mark => decide ((byteAt bs 8).toNat ≤ 1)

/-- The verdict of the field checks at depth `d` (R57). -/
def checkRecord (d : Nat) (bs : List Byte) : Verdict :=
  match RecKind.ofCode (recCode bs) with
  | none => .badKind
  | some k =>
    if decide ((byteAt bs 1).toNat ≤ 1) && recordReservedOk k bs && recordFieldsOk d k bs then .good else .badField

/-- The band that a record's kind names, absent for a MARK (R53, R67). -/
def bandNamed (k : RecKind) (bs : List Byte) : Option Band :=
  match k with
  | .mark => none
  | .openBand => some (recBand bs)
  | .fillRect => some (recBand bs)
  | .place => some (recBand bs)
  | .copyRect => some (recBand bs)
  | .closeBand => some (recBand bs)
  | .discardBand => some (recBand bs)

/-! ## Completion entries (9.5, R175) -/

/-- The status codes (9.5). -/
def Status.code : Status → Byte
  | .ok => 0#8
  | .skipped => 1#8
  | .badKind => 2#8
  | .badField => 3#8
  | .bandNumber => 4#8
  | .windowFull => 5#8
  | .bandNotOpen => 6#8
  | .ringFault => 7#8
  | .sourceFault => 8#8
  | .aborted => 9#8
  | .state => 10#8
  | .badStream => 11#8
  | .quotaSmall => 12#8
  | .poolOvercommit => 13#8

/-- The 16 bytes of a completion entry with its phase (R175). -/
def entryBytes (phase : Bool) (e : Entry) : List Byte :=
  leBytes 4 e.tag.toNat ++ [e.source, e.kind, e.status.code, BitVec.ofNat 8 (phase.toNat + 2 * e.empty.toNat)] ++
    leBytes 2 e.index.toNat ++ leBytes 2 e.head.toNat ++ leBytes 4 e.extra.toNat

/-- A band number in the extra field, zero-extended; "none" when absent (R175). -/
def bandExtra (b : Option Band) : BitVec 32 :=
  match b with
  | some n => n.setWidth 32
  | none => Config.noValue

end Sys2Proof.Machine
end

