-- ==== Sys2Proof/Machine/Ops.lean ====
section
/-!
DEFINITION. The shared operations: access to a stream, lane and slot; host reads and posted writes; completion
entries, their admission and their ring write.
-/

namespace Sys2Proof.Machine

/-! ## Access -/

/-- The stream `i`. -/
def State.stream (s : State) (i : StreamId) : Stream := s.streams.get i

/-- `s` with stream `i` as `f` makes it. -/
def State.mapStream (i : StreamId) (f : Stream → Stream) (s : State) : State :=
  { s with streams := putAt s.streams i (f (s.stream i)) }

/-- The lane `i`. -/
def State.lane (s : State) (i : StreamId) : Lane := s.lanes.get i

/-- `s` with lane `i` as `f` makes it. -/
def State.mapLane (i : StreamId) (f : Lane → Lane) (s : State) : State :=
  { s with lanes := putAt s.lanes i (f (s.lane i)) }

/-- The band-table slot `k`; none is FREE. -/
def State.slot (s : State) (k : SlotId) : Option BandSlot := s.bands.slots.get k

/-- The four streams or lanes from `i` on, round-robin. -/
def roundFrom (i : StreamId) : List StreamId := [i, i + 1, i + 2, i + 3]

/-! ## Host reads (R168, R169) -/

/-- The pieces of a range of `len` bytes: offset and length (R168). -/
def readPieces (len : Nat) : List (Nat × Nat) :=
  (List.range ((len + (Config.readPiece - 1)) / Config.readPiece)).map fun k =>
    (Config.readPiece * k, min Config.readPiece (len - Config.readPiece * k))

/-- A read request is issued and its limit starts (R168, R169). -/
def Port.issueRead (who : Requester) (addr : BitVec 64) (len : Nat) (p : Port) : Port :=
  let limit := if who = .attach then Config.contextLimit else p.readLimit.getD 0
  let req : ReadReq := { id := p.nextId, who, addr, len, limit, got := List.replicate len none, lost := false }
  { p with
    outstanding := p.outstanding ++ [req]
    nextId := p.nextId + 1
    sent := p.sent ++ [.readRequest p.nextId addr len] }

/-- A read request is asked for: issued, or waiting (R168). -/
def Port.askRead (who : Requester) (addr : BitVec 64) (len : Nat) (p : Port) : Port :=
  if p.canIssue then p.issueRead who addr len else { p with waiting := p.waiting ++ [.read who addr len] }

/-- The requests of a range of the raster unit, in address order (R83, R168). -/
def Port.askRow (addr : BitVec 64) (len : Nat) (p : Port) : Port :=
  (readPieces len).foldl (fun p c => p.askRead (.raster c.1) (addr + BitVec.ofNat 64 c.1) c.2) p

/-! ## Entries of each producer -/

/-- The extra field of LANE_HALTED (R175). -/
def haltedExtra (reason : BitVec 4) (band : Option Band) : BitVec 32 :=
  match band with
  | some b => BitVec.ofNat 32 (b.toNat + reason.toNat * 65536)
  | none => BitVec.ofNat 32 (0x8000FFFF + reason.toNat * 65536)

/-- The completion entry of a lane event (R134). -/
def laneEntry (i : StreamId) (ev : LaneEvent) : Entry :=
  let e : Entry := { tag := 0#32, source := BitVec.ofNat 8 (8 + i.val), kind := 0x22#8, status := .ok, empty := false,
                     index := 0#16, head := 0#16, extra := Config.noValue }
  match ev with
  | .bandSent tag band => { e with tag := tag, kind := 0x20#8, extra := band.setWidth 32 }
  | .starved band => { e with kind := 0x21#8, extra := band.setWidth 32 }
  | .synced => e
  | .halted reason band => { e with kind := 0x23#8, extra := haltedExtra reason band }
  | .lost band => { e with kind := 0x24#8, extra := band.setWidth 32 }

/-- An entry of the admin unit (R31). -/
def adminEntry (kind : Byte) (tag : BitVec 32) (index head : Nat) (st : Status) (extra : BitVec 32) : Entry :=
  { tag := tag, source := 0#8, kind := kind, status := st, empty := false
    index := BitVec.ofNat 16 index, head := BitVec.ofNat 16 head, extra := extra }

/-- An entry for a stream record (R73). -/
def recordEntry (i : StreamId) (kind : Byte) (tag : BitVec 32) (index head : Nat) (st : Status) (empty : Bool)
    (extra : BitVec 32) : Entry :=
  { tag := tag, source := BitVec.ofNat 8 (i.val + 1), kind := kind, status := st, empty := empty
    index := BitVec.ofNat 16 index, head := BitVec.ofNat 16 head, extra := extra }

/-- The completion of a mark that is due (R25, R26). -/
def markEntry (i : StreamId) (m : Mark) : Entry :=
  recordEntry i 0x07#8 m.tag m.index m.head (if m.st = .dueAborted then .aborted else .ok) false (m.boundary.setWidth 32)

/-- The number of records a ring counts as submitted and not consumed (R140). -/
def Ring.count (r : Ring) : Nat := (r.tail + r.size - r.head) % r.size

/-- The ring with its head moved past one record (R141). -/
def Ring.advance (r : Ring) : Ring := { r with head := (r.head + 1) % r.size }

/-- What stream `i` offers: its first due mark, or else its due STOP or ABORT (R150). A STOP becomes due only with no due mark, so
one that stands beside a due mark was offered before it, and is not withdrawn for it (R150, log 25). -/
def Stream.offer (i : StreamId) (st : Stream) : Option Entry :=
  match st.dstop.bind (fun d => d.due.map fun x => (d, x)) with
  | some (d, x) => some (adminEntry 0x12#8 d.tag d.index d.head x.1 (x.2.setWidth 32))
  | none =>
    match st.marks.find? (fun m => m.st != .boundary) with
    | some m => some (markEntry i m)
    | none =>
      match st.dabort with
      | some d =>
        if d.due then
          some (adminEntry 0x13#8 d.tag d.index d.head .ok (BitVec.ofNat 32 ((st.ring.map Ring.count).getD 0)))
        else none
      | none => none

/-- What the raster unit offers (R150). -/
def RasterUnit.offer : RasterUnit → Option Entry
  | .holding _ e => some e
  | .posting _ e => some e
  | .free => none
  | .executing _ => none

/-- What the admin unit offers (R150). -/
def AdminUnit.offer : AdminUnit → Option Entry
  | .posting e _ => some e
  | .idle => none
  | .fetching => none
  | .fetched _ _ _ => none
  | .awaiting _ _ => none

/-- The stream that the command whose completion is offered names (R39, log 18). -/
def AdminUnit.stream : AdminUnit → Option StreamId
  | .posting _ i => i
  | .idle => none
  | .fetching => none
  | .fetched _ _ _ => none
  | .awaiting _ _ => none

/-! ## The lane's stop (used at admission) -/

/-- The lane gives up its outstanding frame; a transmission under way is sent to its end and starts no timer (R94, R102). -/
def Lane.dropOut (l : Lane) : Lane :=
  { l with out := none, txWaiting := false, tx := l.tx.map fun t => { t with counts := false } }

/-- The lane enters OFFLINE (R111, R121, 6.4): latch and counters are kept. -/
def Lane.goOffline (l : Lane) : Lane :=
  { l.dropOut with
    state := .offline, seq := 0#2, resendCount := 0, waitCount := 0, credit := 0, params := none
    progress := none, starved := none, stopPending := false }

/-- A lane with a stop order enters OFFLINE once it has no band frame outstanding and its latch is empty (R129, R130). -/
def Lane.settle (l : Lane) : Lane :=
  if l.stopPending && l.latch.isNone && l.state != .sending && l.state != .cancelling then l.goOffline else l

/-! ## The admission arbiter (R149 to R151) -/

/-- The producers, in the order of their categories (R150). -/
inductive Producer where
  | lane (i : StreamId)
  | stream (i : StreamId)
  | raster
  | admin
  deriving DecidableEq, Repr

/-- All producers. -/
def allProducers : List Producer :=
  [.lane 0, .lane 1, .lane 2, .lane 3, .stream 0, .stream 1, .stream 2, .stream 3, .raster, .admin]

/-- The entry a producer offers (R150). -/
def State.offer (s : State) : Producer → Option Entry
  | .lane i => (s.lane i).latch.map (laneEntry i)
  | .stream i => (s.stream i).offer i
  | .raster => s.raster.offer
  | .admin => s.admin.offer

/-- The producers with an offer. -/
def State.offers (s : State) : List Producer := allProducers.filter fun p => (s.offer p).isSome

/-- A drain-end STOP waits behind the event its drain end found in the lane's latch (R132). -/
def Lane.holdsStop (l : Lane) : Bool := l.latch.isSome && l.beforeStop

/-- Whether the arbiter may choose a producer's offer now. A lane is passed by while an entry of it is in the queue (R151); a
stream, while its STOP waits behind an event of its lane (R132); the admin unit, while that STOP is of the stream its command
names, since the STOP goes first (R39, order table under R151, log 18). -/
def State.admissible (s : State) : Producer → Bool
  | .lane i => s.ring.queue.all fun e => e.source != BitVec.ofNat 8 (8 + i.val)
  | .stream i => !(s.lane i).holdsStop
  | .raster => true
  | .admin => s.admin.stream.all fun i => !(s.lane i).holdsStop

/-- The producers whose offer the arbiter may choose now. -/
def State.contenders (s : State) : List Producer := s.offers.filter s.admissible

/-- The mark list without its first due mark (R25). -/
def dropDue : List Mark → List Mark
  | [] => []
  | m :: ms => if m.st != .boundary then ms else m :: dropDue ms

/-- The stream after the admission of its offer (R25, R39, R49, R50): the deferred STOP becomes absent, the mark leaves the
list, or, for the ABORT, the head is set to the tail and step 8 makes the stream READY. -/
def Stream.admitted (st : Stream) : Stream :=
  match st.dstop.bind (fun d => d.due) with
  | some _ => { st with dstop := none }
  | none =>
    match st.marks.find? (fun m => m.st != .boundary) with
    | some _ => { st with marks := dropDue st.marks }
    | none =>
      match st.dabort with
      | some d =>
        if d.due then
          { st with
            dabort := none, abortAt := none, st := .ready, skip := none, halt := none
            ring := st.ring.map fun r => { r with head := r.tail } }
        else st
      | none => st

/-- The admission releases the producer (R151). -/
def State.released (p : Producer) (s : State) : State :=
  match p with
  | .lane i =>
    { s.mapLane i (fun l => ({ l with latch := none, beforeStop := false }).settle) with
      ring := { s.ring with laneNext := i + 1 } }
  | .stream i => { s.mapStream i Stream.admitted with ring := { s.ring with streamNext := i + 1 } }
  | .raster => { s with raster := .free }
  | .admin => { s with admin := .idle }

/-- A producer's offer joins the queue's tail and the producer is released (R151). -/
def State.admitOffer (p : Producer) (s : State) : State :=
  match s.offer p with
  | none => s
  | some e => ({ s with ring := { s.ring with queue := s.ring.queue ++ [e] } } : State).released p

/-- An offer made while the queue has room and no other offer that could be chosen waits is admitted as it is made (R151, log
11). -/
def State.admitAsMade (p : Producer) (s : State) : State :=
  if s.port.part = .attached ∧ s.ring.queue.length < Config.queueLimit ∧ s.contenders = [p] then s.admitOffer p else s

/-- The offers of a stream, one after another, each made when the one before it is admitted: a STOP, its marks, an ABORT (R25,
R150, log 25). -/
def State.offerStream (i : StreamId) (s : State) : State :=
  Nat.repeat (State.admitAsMade (.stream i)) ((s.stream i).marks.length + 2) s

/-- The arbiter's choice among the admissible offers: category 1 round-robin over the lanes, 2 round-robin over the streams, 3, 4
(R151). -/
def State.chooseOffer (s : State) : Option Producer :=
  ((((roundFrom s.ring.laneNext).map Producer.lane ++ (roundFrom s.ring.streamNext).map Producer.stream ++
      [Producer.raster, Producer.admin]).filter fun p => (s.offer p).isSome && s.admissible p)).head?

/-! ## Ring write and posted writes (R147, R170) -/

/-- Whether the completion ring has room (R147). -/
def CompRing.room (c : CompRing) : Bool := (c.write + 1) % c.size != c.release

/-- The entry at the queue's head is written: its posted write is issued, it leaves the queue, the write position
advances, the phase inverts at a wrap, and coalescing counts it (R147, R148, R153). -/
def State.issueEntry (s : State) : State :=
  match s.ring.queue, s.ring.comp with
  | e :: q, some c =>
    let w := (c.write + 1) % c.size
    State.countEntry e
      { s with
        ring := { s.ring with queue := q, comp := some { c with write := w, phase := if w = 0 then !c.phase else c.phase } }
        port := { s.port with
          sent := s.port.sent ++ [.write (c.base + BitVec.ofNat 64 (16 * c.write)) (entryBytes c.phase e)] } }
  | _, _ => s

/-- A snapshot's write is issued; the completion of its QUERY_STREAM is then due (R52). In FATAL the admin unit completes
nothing more (R32). -/
def State.issueSnapshot (addr : BitVec 64) (bytes : List Byte) (s : State) : State :=
  let s' := { s with port := { s.port with sent := s.port.sent ++ [.write addr bytes] } }
  match s.admin with
  | .awaiting e i =>
    if s.port.part = .attached then ({ s' with admin := .posting e i } : State).admitAsMade .admin else s'
  | _ => s'

/-- A request of the op in flight that waited is issued: it is outstanding from then on (R83, R168). -/
def RasterUnit.issued (who : Requester) (r : RasterUnit) : RasterUnit :=
  match who with
  | .raster _ =>
    match r with
    | .executing op => .executing { op with readsOut := op.readsOut + 1 }
    | .free => r
    | .holding _ _ => r
    | .posting _ _ => r
  | .attach => r
  | .admin => r
  | .fetch => r

/-- What waits is issued when its turn comes (R168, R170). -/
def State.issueAsk (s : State) : LinkAsk → State
  | .read who addr len =>
    { s with port := s.port.issueRead who addr len, raster := s.raster.issued who }
  | .entry => if s.port.part = .attached then s.issueEntry else s
  | .snapshot addr bytes => s.issueSnapshot addr bytes
  | .message =>
    if s.port.messages ∧ s.port.part ≠ .detaching then { s with port := { s.port with sent := s.port.sent ++ [.interrupt] } }
    else s

/-- Everything that waits is issued in the order it was asked for; a message called for by one of these issues is asked
for behind the others (R168, R170). Called with the link up. -/
def State.drainWaiting (s : State) : State :=
  let held := { s with port := { s.port with waiting := [], busMaster := false } }
  let first := s.port.waiting.foldl State.issueAsk held
  let enabled := { first with port := { first.port with waiting := [], busMaster := true } }
  first.port.waiting.foldl State.issueAsk enabled

end Sys2Proof.Machine
end

