-- ==== Sys2Proof/Machine/BandTable.lean ====
section
/-!
DEFINITION. The band manager's shared operations: the band table, the page pool, the numbering and the mark lists
(chapter 1).
-/

namespace Sys2Proof.Machine

/-- The slot numbers 0 to 63 in ascending order. -/
def allSlots : List SlotId := List.finRange 64

/-- The first slot that is not FREE and has a property. -/
def State.findSlot (s : State) (p : BandSlot → Bool) : Option SlotId :=
  allSlots.find? fun k => (s.slot k).any p

/-- The slot that carries a stream's band in state OPEN (R69). -/
def State.openSlot (s : State) (i : StreamId) (band : Band) : Option SlotId :=
  s.findSlot fun b => b.stream == i && b.band == band && b.st == .opened

/-- The slot that carries a stream's band (R8). -/
def State.liveSlot (s : State) (i : StreamId) (band : Band) : Option SlotId :=
  s.findSlot fun b => b.stream == i && b.band == band

/-- The stream's slot in state SENDING (R13). -/
def State.sendingSlot (s : State) (i : StreamId) : Option SlotId :=
  s.findSlot fun b => b.stream == i && b.st == .sending

/-- The lowest-numbered FREE slot (R9). -/
def State.lowestFree (s : State) : Option SlotId := allSlots.find? fun k => (s.slot k).isNone

/-- The band-table contents that are not FREE. -/
def Bands.live (b : Bands) : List BandSlot := b.slots.toList.filterMap id

/-- The open count: the number of the stream's slots in state OPEN (R22). -/
def State.openCount (s : State) (i : StreamId) : Nat :=
  (s.bands.live.filter fun b => b.stream == i && b.st == .opened).length

/-- Pages held: the sum of the lengths of the page lists of the stream's slots (R23). -/
def State.pagesHeld (s : State) (i : StreamId) : Nat :=
  ((s.bands.live.filter fun b => b.stream == i).map fun b => b.pages.length).sum

/-- Whether the stream holds a slot that is not FREE. -/
def State.holdsSlot (s : State) (i : StreamId) : Bool := s.bands.live.any fun b => b.stream == i

/-- The distance of a band from next-emit (00_scope.md, "Band and ring arithmetic"). -/
def bandDist (band nextEmit : Band) : Nat := (band - nextEmit).toNat

/-- `s` with slot `k` as given. -/
def State.putSlot (k : SlotId) (b : Option BandSlot) (s : State) : State :=
  { s with bands := { s.bands with slots := putAt s.bands.slots k b } }

/-- `s` with what slot `k` holds changed; a FREE slot stays FREE. -/
def State.mapSlot (k : SlotId) (f : BandSlot → BandSlot) (s : State) : State :=
  s.putSlot k ((s.slot k).map f)

/-- A new band in slot `k` (R5, R8, R9): the first P pages of the free-page list, the opening values, next-open advanced. -/
def State.openNew (i : StreamId) (k : SlotId) (band : Band) (pages : Nat) (s : State) : State :=
  let slot : BandSlot :=
    { st := .opened, stream := i, band := band, pages := s.bands.free.take pages, blank := false, damaged := false
      autoClosed := false, notify := false, tag := none }
  ({ s with bands := { s.bands with
      free := s.bands.free.drop pages, slots := putAt s.bands.slots k (some slot) } } : State).mapStream i
    fun st => { st with nextOpen := st.nextOpen + 1 }

/-- A slot becomes FREE and its pages join the tail of the free-page list (R6). -/
def State.freeSlot (k : SlotId) (s : State) : State :=
  match s.slot k with
  | none => s
  | some b => { s with bands := { s.bands with free := s.bands.free ++ b.pages, slots := putAt s.bands.slots k none } }

/-- A slot becomes CLOSED and blank, notify no, tag absent, and its pages return at once (R12). -/
def State.discardSlot (k : SlotId) (s : State) : State :=
  match s.slot k with
  | none => s
  | some b =>
    { s with bands := { s.bands with
        free := s.bands.free ++ b.pages
        slots := putAt s.bands.slots k
          (some { b with st := .closed, blank := true, notify := false, tag := none, pages := [] }) } }

/-- A slot number put into a list by its key, before the first greater key. -/
def insertByKey (key : SlotId → Nat) (k : SlotId) : List SlotId → List SlotId
  | [] => [k]
  | h :: t => if key k < key h then k :: h :: t else h :: insertByKey key k t

/-- The stream's slots in ascending distance of their bands from next-emit (R7, R11). -/
def State.slotsByDistance (s : State) (i : StreamId) : List SlotId :=
  let key := fun k => match s.slot k with
    | some b => bandDist b.band (s.stream i).nextEmit
    | none => 0
  (allSlots.filter fun k => (s.slot k).any fun b => b.stream == i).foldl (fun l k => insertByKey key k l) []

/-- Every slot of the stream becomes FREE, in ascending distance from next-emit (R7, R17). -/
def State.freeAll (i : StreamId) (s : State) : State :=
  (s.slotsByDistance i).foldl (fun s k => s.freeSlot k) s

/-- Drain auto-close: the stream's OPEN slots become CLOSED, auto_closed yes, notify no, tag absent (R11). -/
def State.autoClose (i : StreamId) (s : State) : State :=
  { s with bands := { s.bands with slots := s.bands.slots.map fun o => o.map fun b =>
      if b.stream = i ∧ b.st = .opened then { b with st := .closed, autoClosed := true, notify := false, tag := none }
      else b } }

/-- The marks that are due once next-emit is `ne`: every mark whose boundary is at distance 65535, and every mark before
it (R25). -/
def makeDue (ne : Band) : List Mark → List Mark
  | [] => []
  | m :: ms =>
    if (m :: ms).any (fun n => n.boundary == ne - 1)
    then { m with st := if m.st = .boundary then .dueOk else m.st } :: makeDue ne ms
    else m :: ms

/-- Next-emit advances by one and marks become due (R21, R25). -/
def Stream.advanceEmit (st : Stream) : Stream :=
  { st with nextEmit := st.nextEmit + 1, marks := makeDue (st.nextEmit + 1) st.marks }

/-- The SENDING slot `k` of the stream leaves: its pages return, next-emit advances and marks become due (R14, R15). -/
def State.passBand (i : StreamId) (k : SlotId) (s : State) : State :=
  (s.freeSlot k).mapStream i Stream.advanceEmit

/-- The SENDING slot `k` is skipped: it leaves and the stream offers its due marks (R15, R25). -/
def State.skipBand (i : StreamId) (k : SlotId) (s : State) : State := (s.passBand i k).offerStream i

end Sys2Proof.Machine
end

