-- ==== Sys2Proof/Machine/StreamControl.lean ====
section
/-!
DEFINITION. Stream control's shared operations: emptying a latch, a halt, input-quiet and the drain end (chapter 2).
-/

namespace Sys2Proof.Machine

/-- Whether the stream's state is one of RUNNING and DRAINING (R27). -/
def Stream.takesRecords (st : Stream) : Bool := st.st == .running || st.st == .draining

/-- Whether the stream's state is one of RUNNING, DRAINING and HALTED (R112). -/
def Stream.emits (st : Stream) : Bool := st.takesRecords || st.st == .halted

/-- The fetch arbiter's read is dropped if it was issued for the stream (R60). -/
def Intake.drop (i : StreamId) (n : Intake) : Intake :=
  { n with fetchRead := n.fetchRead.map fun f => if f.stream = i then { f with dropped := true } else f }

/-- Intake empties the stream's latch; a fetch of the stream in flight is dropped (R41, R47, R61, R62). -/
def State.emptyLatch (i : StreamId) (s : State) : State :=
  { s.mapStream i (fun st => { st with latch := .empty }) with intake := s.intake.drop i }

/-- A halt claim is taken if the stream is RUNNING or DRAINING (R41). -/
def State.halt (i : StreamId) (info : HaltInfo) (s : State) : State :=
  match (s.stream i).st with
  | .running => (s.mapStream i fun st => { st with st := .halted, ret := some .running, halt := some info }).emptyLatch i
  | .draining => (s.mapStream i fun st => { st with st := .halted, ret := some .draining, halt := some info }).emptyLatch i
  | .unconfigured => s
  | .ready => s
  | .halted => s
  | .aborting => s

/-- The stream whose op or hand-over the raster unit carries (R71, R90). -/
def RasterUnit.stream : RasterUnit → Option StreamId
  | .free => none
  | .holding i _ => some i
  | .executing op => some op.stream
  | .posting op _ => some op.stream

/-- An op of the stream is in flight (R71, R90). -/
def State.opInFlight (s : State) (i : StreamId) : Bool := s.raster.stream == some i

/-- A ring without records (R140). -/
def Ring.isEmpty (r : Ring) : Bool := r.head == r.tail

/-- Input-quiet (R38). -/
def State.inputQuiet (s : State) (i : StreamId) : Bool :=
  (s.stream i).ring.any Ring.isEmpty && (s.stream i).latch == .empty && !s.opInFlight i

/-- The conditions of the drain end (R39). -/
def State.drainEnds (s : State) (i : StreamId) : Bool :=
  s.port.part == .attached && (s.stream i).st == .draining && s.inputQuiet i && !s.holdsSlot i &&
    (s.stream i).marks.isEmpty && ((s.lane i).state == .idle || (s.lane i).state == .syncing)

/-- What the drain end does (R39): the STOP is due with OK and next-emit, the stream is READY, the skip band absent, the
lane OFFLINE; the STOP is offered, behind the event in the lane's latch if there is one (R132). -/
def State.drainEnd (i : StreamId) (s : State) : State :=
  ((s.mapStream i fun st =>
      { st with
        dstop := st.dstop.map fun d => { d with due := some (.ok, st.nextEmit) }
        st := .ready, ret := none, skip := none }).mapLane i fun l =>
      { l.goOffline with beforeStop := l.latch.isSome }).offerStream i

/-- The drain end, if its conditions hold. -/
def State.lookForDrainEnd (i : StreamId) (s : State) : State := if s.drainEnds i then s.drainEnd i else s

end Sys2Proof.Machine
end

