-- ==== Sys2Proof/Machine/LaneOps.lean ====
section
/-!
DEFINITION. The lanes' shared operations: transmission, the exchange of one frame, synchronisation, the emission of a
band, the stop of an abort, the starve timer (chapters 5 and 6).
-/

namespace Sys2Proof.Machine

/-! ## Frames and their transmission -/

/-- The chunk size code of a SYNC (9.7). -/
def chunkCode (n : Nat) : Byte := if n = 256 then 0#8 else if n = 512 then 1#8 else 2#8

/-- The bytes of the outstanding frame of lane `i` as it is transmitted now (R96, R177); a CHUNK's data is read from band
memory at each transmission (R115). -/
def frameBytes (b : Bands) (i : StreamId) (l : Lane) (o : Outstanding) : List Byte :=
  let seq := o.seq.setWidth 8
  withCheck <| match o.frame with
  | .sync chunkSize => [0x01#8, seq, BitVec.ofNat 8 i.val, chunkCode chunkSize]
  | .header band lines lineBytes depth blank damaged autoClosed bandBytes =>
    [0x02#8, seq] ++ beBytes 2 band.toNat ++ beBytes 2 lines ++ beBytes 2 lineBytes ++
      [BitVec.ofNat 8 depth, BitVec.ofNat 8 (blank.toNat + 2 * damaged.toNat + 4 * autoClosed.toNat)] ++
      beBytes 4 bandBytes
  | .chunk index length =>
    let pages := (l.progress.bind fun p => b.slots.get p.slot).elim [] BandSlot.pages
    let size := l.params.elim 0 LaneParams.chunkSize
    [0x03#8, seq] ++ beBytes 2 index ++ beBytes 2 length ++ bandRange b.mem pages (index * size) length
  | .trailer count crc => [0x04#8, seq] ++ beBytes 2 count ++ beBytes 4 crc.toNat
  | .cancel band => [0x05#8, seq] ++ beBytes 2 band.toNat

/-- The outstanding frame is transmitted, at once or when the transmission under way has ended (R94, R101); the exchange
is in REPLY and the reply timer stands until the transmission ends (R99, R102). -/
def Lane.transmit (b : Bands) (i : StreamId) (l : Lane) : Lane :=
  match l.out with
  | none => l
  | some o =>
    let o' := { o with begun := o.begun || l.tx.isNone, paused := false, timer := false }
    match l.tx with
    | some _ => { l with out := some o', txWaiting := true }
    | none => { l with out := some o', tx := some { bytes := frameBytes b i l o', counts := true }, txWaiting := false }

/-- Whether a frame is a SYNC. -/
def Frame.isSync : Frame → Bool
  | .sync _ => true
  | .header _ _ _ _ _ _ _ _ => false
  | .chunk _ _ => false
  | .trailer _ _ => false
  | .cancel _ => false

/-- The lane sends a new frame: a SYNC carries seq 0, every other frame the sequence number (R99). -/
def Lane.send (b : Bands) (i : StreamId) (f : Frame) (l : Lane) : Lane :=
  ({ l with out := some { frame := f, seq := if f.isSync then 0#2 else l.seq, begun := false, paused := false, timer := false } } :
    Lane).transmit b i

/-- The transmission under way ends (R94, R101, R102). -/
def Lane.transmissionEnds (b : Bands) (i : StreamId) (l : Lane) : Lane :=
  match l.tx with
  | none => l
  | some t =>
    let l' := { l with tx := none }
    if l.txWaiting then ({ l' with txWaiting := false } : Lane).transmit b i
    else if t.counts then { l' with out := l.out.map fun o => { o with timer := true } }
    else l'

/-! ## Counters (R136, R137) -/

/-- A 16-bit counter stays at 65535. -/
def saturate (n : Nat) : Nat := min (n + 1) Config.counterLimit

/-- Whether the lane's counters count: not while its stream is UNCONFIGURED (R137). In FATAL they go on counting what an OFFLINE
lane counts (log 20). -/
def State.counting (s : State) (i : StreamId) : Bool := (s.stream i).st != .unconfigured

/-- The stale-reply counter rises. -/
def State.countStale (i : StreamId) (s : State) : State :=
  if s.counting i then s.mapLane i fun l => { l with stale := saturate l.stale } else s

/-- The bad-frame counter rises. -/
def State.countBad (i : StreamId) (s : State) : State :=
  if s.counting i then s.mapLane i fun l => { l with bad := saturate l.bad } else s

/-- The resends counter rises. -/
def State.countResend (i : StreamId) (s : State) : State :=
  if s.counting i then s.mapLane i fun l => { l with resent := saturate l.resent } else s

/-! ## Events and states -/

/-- The lane posts an event through its latch, which offers it at once (R133); in DETACHING it is discarded (R138). -/
def State.postEvent (i : StreamId) (ev : LaneEvent) (s : State) : State :=
  if s.port.part = .detaching then s
  else (s.mapLane i fun l => { l with latch := some ev }).admitAsMade (.lane i)

/-- The lane takes a stop order that waits for nothing more. -/
def State.settleLane (i : StreamId) (s : State) : State := s.mapLane i Lane.settle

/-- The band being emitted: the sending progress's, which equals next-emit (R13, R112). -/
def State.emittedBand (s : State) (i : StreamId) : Band :=
  ((s.lane i).progress.map Progress.band).getD (s.stream i).nextEmit

/-- The lane becomes HALTED and posts LANE_HALTED, with the band unless the refused frame was a SYNC (R104, R124). -/
def State.laneHalted (i : StreamId) (reason : BitVec 4) (band : Option Band) (s : State) : State :=
  ((s.mapLane i fun l => { l.dropOut with state := .halted, progress := none }).postEvent i
    (.halted reason band)).settleLane i

/-- The lane becomes LOST and posts LANE_LOST (R102, R103, R125). -/
def State.laneLost (i : StreamId) (s : State) : State :=
  ((s.mapLane i fun l => { l.dropOut with state := .lost, progress := none }).postEvent i
    (.lost (s.emittedBand i))).settleLane i

/-- The working parameters as the stream's configuration gives them (R106). -/
def paramsOf (c : StreamCfg) : LaneParams :=
  { chunkSize := c.chunkSize, replyLimit := c.replyLimit, resendLimit := c.resendLimit
    waitInterval := c.waitInterval, waitLimit := c.waitLimit, starveLimit := c.starveLimit }

/-- The lane enters SYNCING: fresh working parameters, exchange NONE, counts 0, no progress; seq and credit are kept (R106). -/
def State.enterSyncing (i : StreamId) (s : State) : State :=
  s.mapLane i fun l =>
    { l.dropOut with
      state := .syncing, params := (s.stream i).cfg.map paramsOf, resendCount := 0, waitCount := 0, progress := none }

/-- The lane enters CANCELLING and sends CANCEL for the band (R131). -/
def State.startCancel (i : StreamId) (s : State) : State :=
  let band := s.emittedBand i
  s.mapLane i fun l =>
    ({ l.dropOut with state := .cancelling, progress := none, resendCount := 0, waitCount := 0 } : Lane).send s.bands i
      (.cancel band)

/-! ## Emission of a band (5.6) -/

/-- The slot of the band a lane can start: the conditions of R112, with part ATTACHED (the other blocks stop in FATAL and
DETACHING, R164, R172) and no stop order (6.4). -/
def State.startableSlot (s : State) (i : StreamId) : Option SlotId :=
  let l := s.lane i
  if s.port.part = .attached ∧ l.state = .idle ∧ (s.stream i).emits = true ∧ 1 ≤ l.credit ∧ l.latch = none ∧
      l.stopPending = false then
    s.findSlot fun b => b.stream == i && b.band == (s.stream i).nextEmit && (b.st == .closed || b.st == .sending)
  else none

/-- The HEADER of a band (R113). -/
def headerOf (c : StreamCfg) (b : BandSlot) : Frame :=
  .header b.band c.height c.lineBytes c.depth b.blank b.damaged b.autoClosed c.bandBytes

/-- The chunk count of a slot's band: 0 when blank (R112). -/
def slotChunks (c : StreamCfg) (p : LaneParams) (b : BandSlot) : Nat :=
  if b.blank then 0 else chunkCount c.bandBytes p.chunkSize

/-- The lane starts the band of slot `k` (R112, R113). -/
def State.startBand (i : StreamId) (k : SlotId) (s : State) : State :=
  match s.slot k, (s.stream i).cfg, (s.lane i).params with
  | some b, some c, some p =>
    let s' := s.mapSlot k fun b => { b with st := .sending }
    s'.mapLane i fun l =>
      ({ l with
        state := .sending
        progress := some { band := b.band, slot := k, phase := .header, count := slotChunks c p b, next := 0 } } :
        Lane).send s'.bands i (headerOf c b)
  | _, _, _ => s

/-- The length of chunk `k` of `n` (R115). -/
def chunkLength (bandBytes chunkSize n k : Nat) : Nat :=
  if k + 1 = n then bandBytes - chunkSize * (n - 1) else chunkSize

/-- The lane sends chunk `k` of the band in progress (R115). The progress holds `k` while it is outstanding (DESIGN CHOICE,
log 23). -/
def State.sendChunk (i : StreamId) (k : Nat) (s : State) : State :=
  s.mapLane i fun l =>
    let n := l.progress.elim 0 Progress.count
    let len := chunkLength ((s.stream i).cfg.elim 0 StreamCfg.bandBytes) (l.params.elim 0 LaneParams.chunkSize) n k
    ({ l with progress := l.progress.map fun p => { p with phase := .chunks, next := k } } : Lane).send s.bands i
      (.chunk k len)

/-- The lane sends the TRAILER of the band in progress: the chunk count and the band CRC-32, both 0 for a blank band (R98,
R117). -/
def State.sendTrailer (i : StreamId) (s : State) : State :=
  s.mapLane i fun l =>
    let n := l.progress.elim 0 Progress.count
    let pages := (l.progress.bind fun p => s.slot p.slot).elim [] BandSlot.pages
    let crc := if n = 0 then 0#32
      else crc32 (bandRange s.bands.mem pages 0 ((s.stream i).cfg.elim 0 StreamCfg.bandBytes))
    ({ l with progress := l.progress.map fun p => { p with phase := .trailer, next := n } } : Lane).send s.bands i
      (.trailer n crc)

/-- The slot that leaves hands its notify field, tag and band to the lane, which posts BAND_SENT if notify is yes (R14, R118). -/
def State.postSent (i : StreamId) (b : BandSlot) (s : State) : State :=
  if b.notify then s.postEvent i (.bandSent (b.tag.getD 0#32) b.band) else s

/-- The SENDING slot `k` of the stream is emitted: it leaves, its marks become due and are offered, and BAND_SENT is posted, in
the order of R14, during an abort too (log 17). -/
def State.sentBand (i : StreamId) (k : SlotId) (s : State) : State :=
  match s.slot k with
  | none => s
  | some b => ((s.passBand i k).offerStream i).postSent i b

/-- The band has been emitted (R14, R118): the lane then becomes IDLE, or OFFLINE under a stop order. -/
def State.bandEmitted (i : StreamId) (s : State) : State :=
  let after := match s.sendingSlot i with
    | none => s
    | some k => s.sentBand i k
  (after.mapLane i fun l => { l with state := .idle, progress := none }).settleLane i

/-! ## Replies (5.2) -/

/-- The outstanding frame is accepted and done (R99, R101). -/
def Lane.accepted (o : Outstanding) (l : Lane) : Lane :=
  { l.dropOut with resendCount := 0, waitCount := 0, seq := if o.frame.isSync then 1#2 else l.seq + 1 }

/-- What follows an ACCEPT taken for the outstanding frame `o` (R101, R108, R114, R116, R118, R130, R131). -/
def State.acceptTaken (i : StreamId) (o : Outstanding) (s : State) : State :=
  let d := s.mapLane i (Lane.accepted o)
  match o.frame with
  | .sync _ =>
    ((d.mapLane i fun l => { l with state := .idle, credit := 0 }).postEvent i .synced).settleLane i
  | .header _ _ _ _ blank _ _ _ =>
    let c := d.mapLane i fun l => { l with credit := l.credit - 1 }
    if (s.lane i).stopPending then c.startCancel i else if blank then c.sendTrailer i else c.sendChunk i 0
  | .chunk k _ =>
    if (s.lane i).stopPending then d.startCancel i
    else if k + 1 < (s.lane i).progress.elim 0 Progress.count then d.sendChunk i (k + 1) else d.sendTrailer i
  | .trailer _ _ => d.bandEmitted i
  | .cancel _ => d.mapLane i Lane.goOffline

/-- The limit-counted repeat of a frame is exhausted: a CANCEL ends in OFFLINE, another frame in LOST (R102, R103, R131). -/
def State.exhausted (i : StreamId) (o : Outstanding) (s : State) : State :=
  match o.frame with
  | .cancel _ => s.mapLane i Lane.goOffline
  | .sync _ => s.laneLost i
  | .header _ _ _ _ _ _ _ _ => s.laneLost i
  | .chunk _ _ => s.laneLost i
  | .trailer _ _ => s.laneLost i

/-- The exchange becomes PAUSED and the wait timer starts (R103); a transmission under way starts no reply timer (R102). -/
def Lane.pause (o : Outstanding) (l : Lane) : Lane :=
  { l.dropOut with out := some { o with paused := true, timer := false } }

/-- A WAIT taken for the outstanding frame `o` (R103, R107). -/
def State.waitTaken (i : StreamId) (o : Outstanding) (s : State) : State :=
  if o.frame.isSync then s.mapLane i (Lane.pause o)
  else
    let c := s.mapLane i fun l => { l with waitCount := l.waitCount + 1 }
    if (s.lane i).params.elim 0 LaneParams.waitLimit < (s.lane i).waitCount + 1 then c.exhausted i o
    else c.mapLane i (Lane.pause o)

/-- A REFUSE taken for the outstanding frame `o` (R104, R124, R131). -/
def State.refuseTaken (i : StreamId) (reason : BitVec 4) (o : Outstanding) (s : State) : State :=
  match o.frame with
  | .cancel _ => s.mapLane i Lane.goOffline
  | .sync _ => s.laneHalted i reason none
  | .header _ _ _ _ _ _ _ _ => s.laneHalted i reason (some (s.emittedBand i))
  | .chunk _ _ => s.laneHalted i reason (some (s.emittedBand i))
  | .trailer _ _ => s.laneHalted i reason (some (s.emittedBand i))

/-- A reply is taken if a frame is outstanding and carries its seq; otherwise it is stale (R100). -/
def State.reply (i : StreamId) (seq : Seq) (taken : Outstanding → State → State) (s : State) : State :=
  match (s.lane i).out with
  | none => s.countStale i
  | some o => if o.begun = true ∧ o.seq = seq then taken o s else s.countStale i

/-- A CREDIT (R109): ignored and counted as stale in OFFLINE and SYNCING. -/
def State.takeCredit (i : StreamId) (grant : Byte) (s : State) : State :=
  if (s.lane i).state = .offline ∨ (s.lane i).state = .syncing then s.countStale i
  else s.mapLane i fun l => { l with credit := min (l.credit + grant.toNat) Config.creditLimit }

/-- The frame is sent again at an expiry of the reply timer; the resends counter rises (R102, R107, R131). -/
def State.resend (i : StreamId) (s : State) : State :=
  (s.mapLane i fun l => l.transmit s.bands i).countResend i

/-- The reply timer expires with the exchange in REPLY (R102, R107, R130, R131). -/
def State.replyExpired (i : StreamId) (o : Outstanding) (s : State) : State :=
  if o.frame.isSync then s.resend i
  else if (s.lane i).stopPending && (s.lane i).state == .sending then
    (s.mapLane i fun l => { l with seq := l.seq + 1 }).startCancel i
  else
    let c := s.mapLane i fun l => { l with resendCount := l.resendCount + 1 }
    if (s.lane i).params.elim 0 LaneParams.resendLimit < (s.lane i).resendCount + 1 then c.exhausted i o
    else c.resend i

/-! ## Stop order and starve timer (chapter 6) -/

/-- The lane takes a stop order (R129, R130): a lane that is OFFLINE stays so. -/
def State.stopLane (i : StreamId) (s : State) : State :=
  s.mapLane i fun l => if l.state = .offline then l else ({ l with stopPending := true }).settle

/-- The conditions under which the starve timer is armed, all together (R121). The timer runs exactly while they hold: it
starts from its full length when they begin to hold and stops when one fails (log 9). -/
def State.starveArmed (s : State) (i : StreamId) : Bool :=
  let l := s.lane i
  let next := (s.stream i).nextEmit
  l.state == .idle && decide (1 ≤ l.credit) && (s.stream i).emits &&
    (s.findSlot fun b => b.stream == i && b.band == next && (b.st == .closed || b.st == .sending)).isNone &&
    decide (l.params.elim 0 LaneParams.starveLimit ≠ 0) && l.starved != some next && l.latch.isNone

end Sys2Proof.Machine
end

