-- ==== Sys2Proof/Machine/RasterOps.lean ====
section
/-!
DEFINITION. The raster unit's shared operations: dots, combine modes, clipping, row writes, the reading of a PLACE, and
the end of an op (chapter 4).
-/

namespace Sys2Proof.Machine

/-! ## Dots (R2, R77) -/

/-- Dots per byte at depth `d` (R2). -/
def dotsPerByte (d : Nat) : Nat := 8 / d

/-- Dot `n` of a byte at depth `d`, counted from the most significant end (R2). -/
def dotOfByte (d : Nat) (b : Byte) (n : Nat) : BitVec 2 :=
  BitVec.ofNat 2 ((b.toNat >>> (8 - d * (n + 1))) % 2 ^ d)

/-- The byte whose dots are `f`, dot 0 at the most significant end (R2). -/
def packDots (d : Nat) (f : Nat → BitVec 2) : Byte :=
  (List.range (dotsPerByte d)).foldl (fun acc n => acc ||| ((f n).setWidth 8 <<< (8 - d * (n + 1)))) 0#8

/-- The combine modes: the new value from the destination dot and the source value (R77). -/
def combine (mode : Combine) (dst src : BitVec 2) : BitVec 2 :=
  match mode with
  | .replace => src
  | .or => dst ||| src
  | .clear => dst &&& ~~~src
  | .xor => dst ^^^ src

/-- Dot (x, y) of a band with line bytes `lb` at depth `d` (R2). -/
def bandDot (m : List Host.Cell) (pages : List Page) (lb d x y : Nat) : BitVec 2 :=
  dotOfByte d (bandByte m pages (y * lb + x / dotsPerByte d)) (x % dotsPerByte d)

/-! ## Clipping (R79, R80, R82, R86) -/

/-- The whole band (R79). -/
def wholeArea (w h : Nat) : Area := { c0 := 0, c1 := w, r0 := 0, r1 := h }

/-- A rectangle clipped to the band (R80): the sums are exact. -/
def clipRect (x y : Int) (w h width height : Nat) : Area :=
  { c0 := (max x 0).toNat, c1 := (min (x + w) width).toNat
    r0 := (max y 0).toNat, r1 := (min (y + h) height).toNat }

/-- The clipped area of a COPY_RECT: the source rectangle clipped to the source band, moved, and clipped to the
destination band (R86). -/
def clipCopy (sx sy x y : Int) (w h width height : Nat) : Area :=
  { c0 := (max (max sx 0 + (x - sx)) 0).toNat
    c1 := (min (min (sx + w) width + (x - sx)) width).toNat
    r0 := (max (max sy 0 + (y - sy)) 0).toNat
    r1 := (min (min (sy + h) height + (y - sy)) height).toNat }

/-- An area with an empty range (R80). -/
def Area.isEmpty (a : Area) : Bool := decide (a.c1 ≤ a.c0) || decide (a.r1 ≤ a.r0)

/-- The number of rows of an area. -/
def Area.rows (a : Area) : Nat := a.r1 - a.r0

/-! ## Row writes (R78, R84, R87) -/

/-- Line bytes of the op's geometry (R76). -/
def Op.lineBytes (op : Op) : Nat := op.width * op.depth / 8

/-- Whether the op writes its rows in descending order: a COPY_RECT within one band whose destination lies below its
source (R78). -/
def Op.descending (op : Op) : Bool :=
  match op.kind with
  | .copyRect src rect _ sy _ => src == op.slot && decide (0 < rect.y - sy)
  | .initialFill _ => false
  | .fillRect _ _ _ => false
  | .place _ _ _ _ _ _ => false

/-- The line the next row write takes (R78). -/
def Op.line (op : Op) : Nat :=
  if op.descending then op.area.r1 - 1 - op.rowsDone else op.area.r0 + op.rowsDone

/-- The pages of a slot. -/
def Bands.pagesOf (b : Bands) (k : SlotId) : List Page := (b.slots.get k).elim [] BandSlot.pages

/-- The first visible source dot of a PLACE (R82). -/
def Op.firstDot (op : Op) (x : Int) : Nat := ((op.area.c0 : Int) - x).toNat

/-- The last visible source dot plus one (R82). -/
def Op.endDot (op : Op) (x : Int) : Nat := ((op.area.c1 : Int) - x).toNat

/-- The first byte of a source row's visible range (R82). -/
def Op.firstByte (op : Op) (x : Int) (ds : Nat) : Nat := op.firstDot x * ds / 8

/-- The length of a source row's visible range (R82). -/
def Op.rangeLength (op : Op) (x : Int) (ds : Nat) : Nat := (op.endDot x * ds - 1) / 8 - op.firstByte x ds + 1

/-- The source value of a PLACE dot (R84): at source depth 1 on depth 2 the ink value for a set bit, 0 for a clear one. -/
def placeValue (ds d : Nat) (ink dot : BitVec 2) : BitVec 2 :=
  if ds = 1 ∧ d = 2 then (if dot = 0#2 then 0#2 else ink) else dot

/-- The source value for dot (u, v) of the op's area (R79, R80, R82, R84, R86). -/
def Op.source (op : Op) (b : Bands) (u v : Nat) : BitVec 2 :=
  match op.kind with
  | .initialFill value => value
  | .fillRect _ value _ => value
  | .place rect _ _ ds ink _ =>
    let c := ((u : Int) - rect.x).toNat
    placeValue ds op.depth ink
      (dotOfByte ds (byteAt op.rowData (c * ds / 8 - op.firstByte rect.x ds)) (c % dotsPerByte ds))
  | .copyRect src rect sx sy _ =>
    bandDot b.mem (b.pagesOf src) op.lineBytes op.depth ((u : Int) - rect.x + sx).toNat ((v : Int) - rect.y + sy).toNat

/-- The op's combine mode; an initial fill combines with REPLACE (R77). -/
def Op.mode (op : Op) : Combine :=
  match op.kind with
  | .initialFill _ => .replace
  | .fillRect _ _ m => m
  | .place _ _ _ _ _ m => m
  | .copyRect _ _ _ _ m => m

/-- The new byte `j` of line `v`: dots of the area combined, the others as they were (R78). -/
def Op.newByte (op : Op) (b : Bands) (v j : Nat) : Byte :=
  let n := dotsPerByte op.depth
  let old := bandByte b.mem (b.pagesOf op.slot) (v * op.lineBytes + j)
  packDots op.depth fun k =>
    let u := j * n + k
    if op.area.c0 ≤ u ∧ u < op.area.c1 then combine op.mode (dotOfByte op.depth old k) (op.source b u v)
    else dotOfByte op.depth old k

/-- The bytes of line `v` that the row write changes, all computed before any is written (R78, R87). -/
def Op.rowCells (op : Op) (b : Bands) (v : Nat) : List Host.Cell :=
  let n := dotsPerByte op.depth
  let first := op.area.c0 / n
  (List.range ((op.area.c1 - 1) / n + 1 - first)).filterMap fun k =>
    (bandAddr (b.pagesOf op.slot) (v * op.lineBytes + (first + k))).map fun a => (a, op.newByte b v (first + k))

/-- One row write: one indivisible write of one line of the area (R78). -/
def Op.writeRow (op : Op) (b : Bands) : Bands := { b with mem := Memory.writeAll b.mem (op.rowCells b op.line) }

/-! ## The end of an op (R88 to R91) -/

/-- The entry of an op's end (R88, R89). -/
def Op.entry (op : Op) (st : Status) (empty : Bool) : Entry :=
  recordEntry op.stream op.entryKind op.tag op.index op.entryHead st empty (op.band.setWidth 32)

/-- The op's work ended without fault (R88, R91). -/
def State.opEnds (op : Op) (s : State) : State :=
  if (s.stream op.stream).st = .aborting then { s with raster := .free }
  else if op.notify then
    ({ s with raster := .posting op (op.entry .ok op.area.isEmpty) } : State).admitAsMade .raster
  else { s with raster := .free }

/-- The op's work ended with a source fault (R89, R91): damaged flag, halt claim, entry, in this order. -/
def State.opFaults (op : Op) (s : State) : State :=
  if (s.stream op.stream).st = .aborting then { s with raster := .free }
  else
    let marked := s.mapSlot op.slot fun b => { b with damaged := true }
    let halted := marked.halt op.stream { reason := .sourceFault, index := op.index, band := some op.band }
    ({ halted with raster := .posting op (op.entry .sourceFault false) } : State).admitAsMade .raster

/-! ## PLACE (R82, R83, R85) -/

/-- The unit asks for the byte range of the source row that the next line needs; its requests are outstanding once issued, and
those that wait are counted when they are (R82, R83, R168). -/
def State.askSourceRow (op : Op) (x y : Int) (src : BitVec 64) (pitch ds : Nat) (s : State) : State :=
  let len := op.rangeLength x ds
  let row := ((op.line : Int) - y).toNat
  let addr := src + BitVec.ofNat 64 (row * pitch + op.firstByte x ds)
  { s with
    raster := .executing { op with
      readsOut := if s.port.canIssue then (readPieces len).length else 0, rowData := List.replicate len 0#8 }
    port := s.port.askRow addr len }

/-- The op goes on after its rows so far: it ends when every line is written, a PLACE asks for its next source row, and the
others await their next row write (R78, R83). -/
def State.opGoesOn (op : Op) (s : State) : State :=
  if op.area.isEmpty || op.area.rows ≤ op.rowsDone then s.opEnds op
  else
    match op.kind with
    | .place rect src pitch ds _ _ => s.askSourceRow op rect.x rect.y src pitch ds
    | .initialFill _ => { s with raster := .executing op }
    | .fillRect _ _ _ => { s with raster := .executing op }
    | .copyRect _ _ _ _ _ => { s with raster := .executing op }

/-- One row is written and the op goes on (R78). -/
def State.writeRow (op : Op) (s : State) : State :=
  ({ s with bands := op.writeRow s.bands } : State).opGoesOn { op with rowsDone := op.rowsDone + 1 }

/-- A source request of the op has finished, with its bytes or with a fault (R83, R85). -/
def State.sourceFinishes (off : Nat) (res : Option (List Byte)) (op : Op) (s : State) : State :=
  let left := op.readsOut - 1
  match res with
  | none =>
    let op' := { op with readsOut := left, fault := true }
    if left = 0 then s.opFaults op' else { s with raster := .executing op' }
  | some d =>
    if op.fault then
      let op' := { op with readsOut := left }
      if left = 0 then s.opFaults op' else { s with raster := .executing op' }
    else
      let op' := { op with
        readsOut := left, rowData := op.rowData.take off ++ d ++ op.rowData.drop (off + d.length) }
      if left = 0 then s.writeRow op' else { s with raster := .executing op' }

end Sys2Proof.Machine
end

