-- ==== Sys2Proof/Machine/PartOps.lean ====
section
/-!
DEFINITION. The part's shared operations: the blocks' initial values, resets, attach and its end, detach, FATAL, and the
finish of a host read (chapter 8).
-/

namespace Sys2Proof.Machine

/-! ## Initial values of the blocks -/

/-- A lane after detach: every value initial; a transmission under way is sent to its end (R94, R138). -/
def Lane.detached (l : Lane) : Lane :=
  { Lane.initial with tx := l.tx.map fun t => { t with counts := false } }

/-- Every block but the system port takes its initial values; band memory is kept (R3, R18, R27, R138, R152, R165). -/
def State.initialBlocks (s : State) : State :=
  { s with
    ring := RingUnit.initial
    admin := .idle
    streams := Vector.replicate 4 Stream.initial
    intake := Intake.initial
    raster := .free
    bands := { mem := s.bands.mem, free := allPages, slots := Vector.replicate 64 none }
    lanes := s.lanes.map Lane.detached }

/-- A function reset (R166): every block initial, transmissions stop where they stand, outstanding reads are abandoned,
nothing that waited is issued, the window registers are cleared; the configuration space and what has left the part stay. -/
def State.functionReset (s : State) : State :=
  { s.initialBlocks with
    lanes := Vector.replicate 4 Lane.initial
    port := { Port.initial with
      busMaster := s.port.busMaster, messages := s.port.messages, linkUp := s.port.linkUp
      nextId := s.port.nextId, sent := s.port.sent } }

/-! ## FATAL (R171, R172) -/

/-- What still waits in FATAL: read requests and the ring unit's entry write are not issued (R152, R168). -/
def LinkAsk.survivesFatal : LinkAsk → Bool
  | .read _ _ _ => false
  | .entry => false
  | .snapshot _ _ => true
  | .message => true

/-- The part becomes FATAL: the blocks freeze where they stand, the lanes go OFFLINE, the FATAL cause is set (R172). -/
def State.becomeFatal (code : FatalCode) (s : State) : State :=
  { s with
    lanes := s.lanes.map Lane.goOffline
    port := ({ s.port with part := .fatal, fatalCode := code, waiting := s.port.waiting.filter LinkAsk.survivesFatal } :
      Port).raise .ofFatal }

/-! ## Attach (R161 to R163) -/

/-- The attach fails: DETACHED with its code, and the ATTACH cause is set (R162, R163). -/
def State.attachFails (code : AttachCode) (s : State) : State :=
  { s with port := ({ s.port with part := .detached, cancelled := false, attachCode := code } : Port).raise .ofAttach }

/-- The attach succeeds with the given context block (R162). -/
def State.attachSucceeds (bs : List Byte) (s : State) : State :=
  { s.initialBlocks with
    ring := contextRings bs
    port := ({ s.port with
      part := .attached, cancelled := false, readLimit := some (byteAt bs 20).toNat } : Port).raise .ofAttach }

/-- The context read has finished (R162, R163). -/
def State.attachEnds (res : Option (List Byte)) (s : State) : State :=
  if s.port.cancelled then s.attachFails .cancelled
  else
    match res with
    | none => s.attachFails .contextRead
    | some bs => if contextCode bs = .none then s.attachSucceeds bs else s.attachFails (contextCode bs)

/-- The context block address (R159, R161). -/
def Port.contextAddr (p : Port) : BitVec 64 := p.contextHi ++ p.contextLo

/-- ATTACH written 1 (R158, R161). -/
def State.attachOne (s : State) : State :=
  match s.port.part with
  | .detached =>
    let cleared := { s.port with attachCode := .none, fatalCode := .none, cancelled := false }
    if aligned64 s.port.contextAddr then
      { s with port := ({ cleared with part := .attaching } : Port).askRead .attach s.port.contextAddr 128 }
    else ({ s with port := cleared } : State).attachFails .contextAlign
  | .attaching => s
  | .attached => s
  | .detaching => s
  | .fatal => s

/-! ## Detach (R164, R165) -/

/-- What the silent abort does to a stream context (R26, R32, R61, R164): the state field is a choice (log 13). -/
def Stream.abandoned (st : Stream) : Stream :=
  { st with
    st := if st.emits then .aborting else st.st
    ret := none, dstop := none, dabort := none, abortAt := none, marks := [], latch := .empty }

/-- A POSTING or HOLDING entry is dropped at detach; an EXECUTING op is abandoned where it stands (R93). DESIGN CHOICE (log 19):
R93 gives the unit's state only for when DETACHING ends; a unit whose entry is dropped is FREE from the drop on. -/
def RasterUnit.detaching : RasterUnit → RasterUnit
  | .free => .free
  | .holding _ _ => .free
  | .executing op => .executing op
  | .posting _ _ => .free

/-- The admin unit at detach: a fetch in flight is dropped when it returns, a held completion at once (R32). -/
def AdminUnit.detaching : AdminUnit → AdminUnit
  | .idle => .idle
  | .fetching => .fetching
  | .fetched _ _ _ => .idle
  | .awaiting _ _ => .idle
  | .posting _ _ => .idle

/-- The ring unit discards its queue and stops coalescing (R152, R154). -/
def RingUnit.detaching (r : RingUnit) : RingUnit :=
  { r with queue := [], coalesce := r.coalesce.map fun c => { c with counter := 0, timer := false } }

/-- A lane at detach: its event is discarded, and the lane of a configured stream takes a stop order (R138, R164). -/
def Lane.detaching (configured : Bool) (l : Lane) : Lane :=
  let l' := { l with latch := none, beforeStop := false }
  if configured && l.state != .offline then ({ l' with stopPending := true } : Lane).settle else l'

/-- Detach begins (R164). The fetch arbiter forgets its read at once, which stays outstanding on the link (R60, table of 3.8;
DESIGN CHOICE, log 26). -/
def State.detachBegins (s : State) : State :=
  { s with
    port := { s.port with part := .detaching, waiting := [] }
    ring := s.ring.detaching
    admin := s.admin.detaching
    streams := s.streams.map Stream.abandoned
    intake := { s.intake with fetchRead := none }
    raster := s.raster.detaching
    lanes := s.lanes.zipWith (fun l st => Lane.detaching (st.st != .unconfigured) l) s.streams }

/-- Whether a read request that still waits is the context read. -/
def LinkAsk.isContext : LinkAsk → Bool
  | .read .attach _ _ => true
  | .read .admin _ _ => false
  | .read .fetch _ _ => false
  | .read (.raster _) _ _ => false
  | .entry => false
  | .snapshot _ _ => false
  | .message => false

/-- ATTACH written 0 (R158): a cancel in ATTACHING (R163), a detach in ATTACHED and FATAL (R164). -/
def State.attachZero (s : State) : State :=
  match s.port.part with
  | .detached => s
  | .attaching =>
    if s.port.cancelled then s
    else if s.port.waiting.any LinkAsk.isContext then
      ({ s with port := { s.port with waiting := s.port.waiting.filter fun a => !a.isContext } } : State).attachFails
        .cancelled
    else { s with port := { s.port with cancelled := true } }
  | .attached => s.detachBegins
  | .detaching => s
  | .fatal => s.detachBegins

/-- A CONTROL write (R158). -/
def State.writeControl (value : BitVec 32) (s : State) : State :=
  if value.getLsbD 1 then s.functionReset
  else if value.getLsbD 0 then s.attachOne
  else s.attachZero

/-! ## The finish of a host read (R169) -/

/-- An admin fetch has returned with data: the command is taken if head and tail differ, and discarded otherwise (R143). Its row
carries it out and moves the head (R29, log 3). -/
def State.takeCommand (bs : List Byte) (s : State) : State :=
  match s.ring.admin with
  | some r =>
    if r.isEmpty then { s with admin := .idle }
    else { s with admin := .fetched bs r.head false }
  | none => { s with admin := .idle }

/-- An admin fetch has finished (R29, R32, R143, R171). -/
def State.adminReadEnds (res : Option (List Byte)) (s : State) : State :=
  match s.admin with
  | .fetching =>
    match s.port.part with
    | .attached =>
      match res with
      | none => s.becomeFatal .adminReadFault
      | some bs => s.takeCommand bs
    | .detaching => { s with admin := .idle }
    | .detached => s
    | .attaching => s
    | .fatal => s
  | .idle => s
  | .fetched _ _ _ => s
  | .awaiting _ _ => s
  | .posting _ _ => s

/-- The fetch arbiter's read has finished (R57, R60): the latch it was issued for takes the record or the fault, unless the
read was dropped or the latch is no longer FETCHING. -/
def State.recordReadEnds (res : Option (List Byte)) (s : State) : State :=
  match s.intake.fetchRead with
  | none => s
  | some f =>
    let s' := { s with intake := { s.intake with fetchRead := none } }
    if f.dropped ∨ s.port.part ≠ .attached then s'
    else
      s'.mapStream f.stream fun st =>
        match st.latch with
        | .fetching n =>
          match res with
          | none => { st with latch := .faulted n }
          | some bs => { st with latch := .held n bs (checkRecord (st.cfg.elim 1 StreamCfg.depth) bs) }
        | .empty => st
        | .held _ _ _ => st
        | .faulted _ => st

/-- A source request of a PLACE has finished (R83, R85); an op that FATAL or detach has abandoned is not told (R92, R93). -/
def State.sourceReadEnds (off : Nat) (res : Option (List Byte)) (s : State) : State :=
  match s.raster with
  | .executing op => if s.port.part = .attached then s.sourceFinishes off res op else s
  | .free => s
  | .holding _ _ => s
  | .posting _ _ => s

/-- A request has finished: it is no longer outstanding and its requester has the outcome (R169). -/
def State.readEnds (r : ReadReq) (res : Option (List Byte)) (s : State) : State :=
  let s' := { s with port := { s.port with outstanding := s.port.outstanding.filter fun q => q.id != r.id } }
  match r.who with
  | .attach => if s.port.part = .attaching then s'.attachEnds res else s'
  | .admin => s'.adminReadEnds res
  | .fetch => s'.recordReadEnds res
  | .raster off => s'.sourceReadEnds off res

/-- The bytes of a request after a completion that carries `data` from byte `offset` on; bytes outside the request are
ignored, and a byte that has arrived before is replaced (R169; DESIGN CHOICE, log 7). -/
def ReadReq.fill (r : ReadReq) (offset : Nat) (data : List Byte) : ReadReq :=
  { r with got := r.got.mapIdx fun k old => if offset ≤ k then (data[k - offset]?).or old else old }

/-- All bytes of a request, once all have arrived (R169). -/
def ReadReq.whole (r : ReadReq) : Option (List Byte) :=
  if r.got.all Option.isSome then some (r.got.filterMap fun b => b) else none

/-- The outstanding request of a name. -/
def Port.request (p : Port) (id : Nat) : Option ReadReq := p.outstanding.find? fun r => r.id == id

/-- A completion of the link for a request (R169): discarded when the request has finished or the link lost it. -/
def State.takeCompletion (id offset : Nat) (data : List Byte) (good : Bool) (s : State) : State :=
  match s.port.request id with
  | none => s
  | some r =>
    if r.lost then s
    else if good then
      let r' := r.fill offset data
      match r'.whole with
      | some bs => s.readEnds r (some bs)
      | none =>
        { s with port := { s.port with outstanding := s.port.outstanding.map fun q => if q.id = id then r' else q } }
    else s.readEnds r none

/-! ## Notify writes (R142 to R145) -/

/-- A notify write is rejected: ignored, and NOTIFY_ERROR is set (R142). -/
def State.rejectNotify (s : State) : State := s.raise .ofNotifyError

/-- The admin tail is stored; the admin unit looks at it when its fetch returns or when it is next IDLE (R143). A command that is
taken and not yet carried out stays counted as submitted until then: a tail equal to its own index is kept beside it, and is the
ring's once the head has moved (R141, log 3). -/
def State.setAdminTail (r : Ring) (index : Nat) (s : State) : State :=
  let stored (u : AdminUnit) : State := { s with admin := u, ring := { s.ring with admin := some { r with tail := index } } }
  match s.admin with
  | .fetched bs n _ => if index = r.head then { s with admin := .fetched bs n true } else stored (.fetched bs n false)
  | .idle => stored .idle
  | .fetching => stored .fetching
  | .awaiting e i => stored (.awaiting e i)
  | .posting e i => stored (.posting e i)

/-- A stream tail (R62, R144): a tail equal to the head empties a latch that is not EMPTY. -/
def State.setStreamTail (i : StreamId) (r : Ring) (index : Nat) (s : State) : State :=
  let s' := s.mapStream i fun st => { st with ring := some { r with tail := index } }
  if index = r.head ∧ (s.stream i).latch ≠ .empty then s'.emptyLatch i else s'

/-- The release position (R145). -/
def CompRing.releasable (c : CompRing) (index : Nat) : Bool :=
  decide ((index + c.size - c.release) % c.size ≤ (c.write + c.size - c.release) % c.size)

/-- A notify write of a queue id and an index (R142). -/
def State.notify (queue : BitVec 8) (index : BitVec 16) (s : State) : State :=
  let n := index.toNat
  if s.port.part ≠ .attached then s.rejectNotify
  else if queue = 0#8 then
    match s.ring.admin with
    | some r => if n < r.size then s.setAdminTail r n else s.rejectNotify
    | none => s.rejectNotify
  else if h : 1 ≤ queue.toNat ∧ queue.toNat ≤ 4 then
    let i : StreamId := ⟨queue.toNat - 1, by omega⟩
    if (s.stream i).st = .unconfigured then s.rejectNotify
    else
      match (s.stream i).ring with
      | some r => if n < r.size then s.setStreamTail i r n else s.rejectNotify
      | none => s.rejectNotify
  else if queue = 7#8 then
    match s.ring.comp with
    | some c =>
      if n < c.size ∧ c.releasable n = true then
        { s with ring := { s.ring with comp := some { c with release := n } } }
      else s.rejectNotify
    | none => s.rejectNotify
  else s.rejectNotify

/-! ## The register window (R157) -/

/-- EVENT_CAUSE written: each cause written with 1 is cleared (R155). -/
def State.writeCause (value : BitVec 32) (s : State) : State :=
  { s with port := s.port.setEvents (s.port.cause.without (Causes.ofWord value)) s.port.mask }

/-- EVENT_MASK written (R156). -/
def State.writeMask (value : BitVec 32) (s : State) : State :=
  { s with port := s.port.setEvents s.port.cause (Causes.ofWord value) }

/-- A write anywhere in the window (R157): only a 32-bit write to a listed register has an effect. -/
def State.writeRegister (offset : BitVec 12) (size : Nat) (value : BitVec 32) (s : State) : State :=
  if size ≠ 4 then s
  else
    match offset.toNat with
    | 0x004 => s.writeControl value
    | 0x00C => { s with port := { s.port with contextLo := value } }
    | 0x010 => { s with port := { s.port with contextHi := value } }
    | 0x014 => s.notify (value.extractLsb' 16 8) (value.setWidth 16)
    | 0x018 => s.writeCause value
    | 0x01C => s.writeMask value
    | _ => s

/-- The part state's code in STATUS (R157). -/
def PartState.code : PartState → Nat
  | .detached => 0
  | .attaching => 1
  | .attached => 2
  | .detaching => 3
  | .fatal => 4

/-- The attach error code's number (R162). -/
def AttachCode.code : AttachCode → Nat
  | .none => 0
  | .contextAlign => 1
  | .contextRead => 2
  | .reserved => 3
  | .adminRing => 4
  | .completionRing => 5
  | .readLimit => 6
  | .coalesce => 7
  | .cancelled => 8

/-- The fatal code's number (R157). -/
def FatalCode.code : FatalCode → Nat
  | .none => 0
  | .adminReadFault => 1
  | .linkLoss => 2

/-- CONTROL reads ATTACH as 1 in ATTACHED, in FATAL, and in ATTACHING not cancelled (R158). -/
def Port.attachBit (p : Port) : Bool :=
  p.part == .attached || p.part == .fatal || (p.part == .attaching && !p.cancelled)

/-- A host read of `size` bytes at an offset of the window (R157, R158); it changes nothing. -/
def readRegister (p : Port) (offset : BitVec 12) (size : Nat) : BitVec 32 :=
  if size ≠ 4 then 0#32
  else
    match offset.toNat with
    | 0x000 => Config.ident
    | 0x004 => BitVec.ofNat 32 p.attachBit.toNat
    | 0x008 => BitVec.ofNat 32 (p.part.code + 256 * p.attachCode.code + 65536 * p.fatalCode.code)
    | 0x00C => p.contextLo
    | 0x010 => p.contextHi
    | 0x018 => p.cause.toWord
    | 0x01C => p.mask.toWord
    | _ => 0#32

end Sys2Proof.Machine
end

