-- ==== Sys2Proof/Machine/Admin.lean ====
section
/-!
DEFINITION. Meanings: the admin commands, each taken from the record the admin unit has fetched (chapter 2).
-/

namespace Sys2Proof.Machine

/-! ## Taking a command (R29 to R31) -/

/-- A taken command: its record, its ring index, and the admin ring as it stands once the command is consumed (R31). -/
structure AdminCmd where
  bytes : List Byte
  index : Nat
  past : Ring
  deriving DecidableEq, Repr

/-- The admin ring once the record at its head is consumed (R29, R141); `met` says that the tail was written equal to the head
after the record had returned (log 3). -/
def Ring.passed (met : Bool) (r : Ring) : Ring := { r.advance with tail := if met then r.head else r.tail }

/-- The command in the admin unit, if it is one that the row carries out (R143, log 3). -/
def State.commandFor (s : State) (row : List Byte → Bool) : Option AdminCmd :=
  match s.admin, s.ring.admin with
  | .fetched bs n met, some r =>
    if s.port.part = .attached ∧ row bs = true then
      some { bytes := bs, index := n, past := r.passed met }
    else none
  | _, _ => none

/-- The command of a record (R30). -/
def recCommand (bs : List Byte) : Option Command := Command.ofCode (byteAt bs 0)

/-- The action byte of a CLEAR_STREAM or CLEAR_LANE (9.3). -/
def recAction (bs : List Byte) : Nat := (byteAt bs 8).toNat

/-- The stream number of an admin record (9.3). -/
def recStream (bs : List Byte) : Nat := (byteAt bs 1).toNat

/-- The stream that an admin record names, if there is one (R30). -/
def recTarget (bs : List Byte) : Option StreamId := if h : recStream bs < 4 then some ⟨recStream bs, h⟩ else none

/-- After a command's effect the admin head advances past it, and the admin unit is IDLE unless a completion follows (R29,
R141). -/
def State.leaveCommand (a : AdminCmd) (s : State) : State :=
  { s with admin := .idle, ring := { s.ring with admin := some a.past } }

/-- The completion of a command (R31). -/
def AdminCmd.entry (a : AdminCmd) (st : Status) (extra : BitVec 32) : Entry :=
  adminEntry (byteAt a.bytes 0) (recTag a.bytes) a.index a.past.head st extra

/-- The command is consumed, and its completion is due at once: POSTING until it is admitted (R29). -/
def State.complete (a : AdminCmd) (st : Status) (extra : BitVec 32) (s : State) : State :=
  ({ s.leaveCommand a with admin := .posting (a.entry st extra) (recTarget a.bytes) } : State).admitAsMade .admin

/-- Checks 2 to 4 of R30, in order, then the command's effect, which ends with the command's consumption (R29). -/
def State.runCommand (a : AdminCmd) (c : Command) (taken : Stream → Lane → Bool) (fieldsOk : Bool)
    (effect : StreamId → State → State) (s : State) : State :=
  if h : recStream a.bytes < 4 then
    let i : StreamId := ⟨recStream a.bytes, h⟩
    if taken (s.stream i) (s.lane i) = false then s.complete a .state 0#32
    else if (commandReservedOk c a.bytes && fieldsOk) = false then s.complete a .badField 0#32
    else effect i s
  else s.complete a .badStream 0#32

/-- UNKNOWN_COMMAND: refused with BAD_KIND and consumed (R30). -/
def execUnknownCommand (s : State) : Host.Outcome State Fault Refusal :=
  match s.commandFor fun bs => (recCommand bs).isNone with
  | none => .next s
  | some a => .next (s.complete a .badKind 0#32)

/-! ## CONFIGURE_STREAM and RELEASE_STREAM (R33 to R35) -/

/-- A deferred STOP that a drain end made due stays until it is admitted (R27, R35). -/
def Stream.dueStop (st : Stream) : Option DeferredStop := st.dstop.filter fun d => d.due.isSome

/-- The quotas of the streams other than `i` that are not UNCONFIGURED (R33). -/
def State.otherQuotas (s : State) (i : StreamId) : Nat :=
  (((List.finRange 4).filter fun j => j != i).map fun j => (s.stream j).cfg.elim 0 StreamCfg.quota).sum

/-- The stream as an accepted CONFIGURE_STREAM leaves it (R19, R24, R27, R34). -/
def Stream.configured (r : Ring) (c : StreamCfg) (st : Stream) : Stream :=
  { st with
    st := .ready, ret := none, cfg := some c, ring := some r, halt := none, skip := none, dstop := st.dueStop
    nextOpen := 0#16, nextEmit := 0#16, marks := [] }

/-- CONFIGURE_STREAM (R33, R34). -/
def execConfigureStream (s : State) : Host.Outcome State Fault Refusal :=
  match s.commandFor fun bs => recCommand bs == some .configure with
  | none => .next s
  | some a =>
    let c := configOf a.bytes
    .next (s.runCommand a .configure (fun st _ => st.st == .unconfigured || st.st == .ready)
      (configInRange (configRing a.bytes) c) fun i t =>
        if c.quota < c.window * c.pages then t.complete a .quotaSmall 0#32
        else if Config.poolPages < s.otherQuotas i + c.quota then t.complete a .poolOvercommit 0#32
        else (t.mapStream i (Stream.configured (configRing a.bytes) c)).complete a .ok 0#32)

/-- The lane's three counters become 0 (R137). -/
def Lane.clearCounters (l : Lane) : Lane := { l with stale := 0, bad := 0, resent := 0 }

/-- RELEASE_STREAM (R35). -/
def execReleaseStream (s : State) : Host.Outcome State Fault Refusal :=
  match s.commandFor fun bs => recCommand bs == some .release with
  | none => .next s
  | some a =>
    .next (s.runCommand a .release (fun st _ => st.st == .ready) true fun i t =>
      ((t.mapStream i fun st => { Stream.initial with dstop := st.dueStop }).mapLane i Lane.clearCounters).complete a
        .ok 0#32)

/-! ## START_STREAM, STOP_STREAM and ABORT_STREAM (R36, R37, R46) -/

/-- START_STREAM (R36, R106, R121, R137). -/
def execStartStream (s : State) : Host.Outcome State Fault Refusal :=
  match s.commandFor fun bs => recCommand bs == some .start with
  | none => .next s
  | some a =>
    let first := le16 a.bytes 8
    .next (s.runCommand a .start (fun st _ => st.st == .ready) true fun i t =>
      (((t.mapStream i fun st =>
        { st with
          st := .running, ret := none, halt := none, skip := none, dstop := st.dueStop
          nextOpen := first, nextEmit := first, marks := [] }).mapLane i fun l =>
        { l.clearCounters with starved := none }).enterSyncing i).complete a .ok 0#32)

/-- Whether STOP_STREAM is taken (R37). -/
def Stream.stoppable (st : Stream) : Bool :=
  st.st == .ready || st.st == .running || (st.st == .halted && st.dstop.isNone)

/-- STOP_STREAM (R37): a drain, a drain-pending halt, or at once in READY. -/
def execStopStream (s : State) : Host.Outcome State Fault Refusal :=
  match s.commandFor fun bs => recCommand bs == some .stop with
  | none => .next s
  | some a =>
    let owed : DeferredStop := { tag := recTag a.bytes, index := a.index, head := a.past.head, due := none }
    .next (s.runCommand a .stop (fun st _ => st.stoppable) true fun i t =>
      if (s.stream i).st = .ready then t.complete a .ok ((s.stream i).nextEmit.setWidth 32)
      else if (s.stream i).st = .running then
        (t.mapStream i fun st => { st with st := .draining, dstop := some owed }).leaveCommand a
      else (t.mapStream i fun st => { st with ret := some .draining, dstop := some owed }).leaveCommand a)

/-- Whether ABORT_STREAM is taken (R46). -/
def Stream.abortable (st : Stream) : Bool := st.st == .ready || st.emits

/-- ABORT_STREAM (R46, R47): at once in READY; otherwise steps 1 and 2 begin. -/
def execAbortStream (s : State) : Host.Outcome State Fault Refusal :=
  match s.commandFor fun bs => recCommand bs == some .abort with
  | none => .next s
  | some a =>
    let owed : DeferredAbort := { tag := recTag a.bytes, index := a.index, head := a.past.head, due := false }
    .next (s.runCommand a .abort (fun st _ => st.abortable) true fun i t =>
      if (s.stream i).st = .ready then
        (t.mapStream i fun st => { st with ring := st.ring.map fun r => { r with head := r.tail } }).complete a .ok
          (BitVec.ofNat 32 (((s.stream i).ring.map Ring.count).getD 0))
      else
        ((t.mapStream i fun st =>
          { st with st := .aborting, ret := none, dabort := some owed, abortAt := some .op }).emptyLatch i).leaveCommand a)

/-! ## CLEAR_STREAM and CLEAR_LANE (R43, R44, R51) -/

/-- The state a clear returns a HALTED stream to (R43). -/
def Stream.resumed (st : Stream) : Stream :=
  { st with st := if st.ret = some .draining then .draining else .running, ret := none }

/-- CLEAR_STREAM RESUME (R43): a stream that is DRAINING again is looked at for its drain end (R39, log 21) before the
completion is offered. It also takes a CLEAR_STREAM whose action is unknown, to refuse it with BAD_FIELD (log 4). -/
def execClearStreamResume (s : State) : Host.Outcome State Fault Refusal :=
  match s.commandFor fun bs => recCommand bs == some .clearStream && recAction bs != 1 with
  | none => .next s
  | some a =>
    .next (s.runCommand a .clearStream (fun st _ => st.st == .halted) (recAction a.bytes == 0) fun i t =>
      ((t.mapStream i Stream.resumed).lookForDrainEnd i).complete a .ok Config.noValue)

/-- CLEAR_STREAM SKIP_BAND (R44): resumes, discards the OPEN halted band and makes it the skip band; then as for RESUME.
DESIGN CHOICE (log 22): the band is looked at before a drain auto-close that the resumed stream's input-quiet check makes
(R38, R43), which is the row DRAIN_AUTO_CLOSE. -/
def execClearStreamSkipBand (s : State) : Host.Outcome State Fault Refusal :=
  match s.commandFor fun bs => recCommand bs == some .clearStream && recAction bs == 1 with
  | none => .next s
  | some a =>
    .next (s.runCommand a .clearStream (fun st _ => st.st == .halted) true fun i t =>
      let r := t.mapStream i Stream.resumed
      match (s.stream i).halt.bind (fun h => h.band) with
      | none => (r.lookForDrainEnd i).complete a .ok Config.noValue
      | some band =>
        match s.openSlot i band with
        | none => (r.lookForDrainEnd i).complete a .ok Config.noValue
        | some k =>
          (((r.discardSlot k).mapStream i fun st => { st with skip := some band }).lookForDrainEnd i).complete a .ok
            (band.setWidth 32))

/-- Whether CLEAR_LANE is taken (R51). -/
def laneClearable (st : Stream) (l : Lane) : Bool := st.emits && (l.state == .halted || l.state == .lost)

/-- CLEAR_LANE RESEND (R127): the lane enters SYNCING, R39 is looked at, then the completion is offered (R51). It also takes
a CLEAR_LANE whose action is unknown, to refuse it with BAD_FIELD (log 4). -/
def execClearLaneResend (s : State) : Host.Outcome State Fault Refusal :=
  match s.commandFor fun bs => recCommand bs == some .clearLane && recAction bs != 1 with
  | none => .next s
  | some a =>
    .next (s.runCommand a .clearLane laneClearable (recAction a.bytes == 0) fun i t =>
      ((t.enterSyncing i).lookForDrainEnd i).complete a .ok Config.noValue)

/-- CLEAR_LANE SKIP (R128): the SENDING slot leaves without BAND_SENT, then as for RESEND; the completion names the band. -/
def execClearLaneSkip (s : State) : Host.Outcome State Fault Refusal :=
  match s.commandFor fun bs => recCommand bs == some .clearLane && recAction bs == 1 with
  | none => .next s
  | some a =>
    .next (s.runCommand a .clearLane laneClearable true fun i t =>
      match s.sendingSlot i with
      | none => ((t.enterSyncing i).lookForDrainEnd i).complete a .ok Config.noValue
      | some k =>
        (((t.skipBand i k).enterSyncing i).lookForDrainEnd i).complete a .ok
          (bandExtra ((s.slot k).map BandSlot.band)))

/-! ## QUERY_STREAM (R52, R176) -/

/-- The stream state's code (9.6). -/
def StreamState.code : StreamState → Byte
  | .unconfigured => 0#8
  | .ready => 1#8
  | .running => 2#8
  | .draining => 3#8
  | .halted => 4#8
  | .aborting => 5#8

/-- The lane state's code (9.6). -/
def LaneState.code : LaneState → Byte
  | .offline => 0#8
  | .syncing => 1#8
  | .idle => 2#8
  | .sending => 3#8
  | .cancelling => 4#8
  | .halted => 5#8
  | .lost => 6#8

/-- The halt reason's code (9.6). -/
def HaltReason.code : HaltReason → Byte
  | .recordError => 1#8
  | .sourceFault => 2#8
  | .ringFault => 3#8

/-- The return state's code; 0xFF absent (9.6). -/
def returnCode : Option ReturnState → Byte
  | some .running => 2#8
  | some .draining => 3#8
  | none => 0xFF#8

/-- The 64 bytes of the snapshot of stream `i` (R52, R176). -/
def State.snapshot (s : State) (i : StreamId) : List Byte :=
  let st := s.stream i
  let l := s.lane i
  [st.st.code, returnCode st.ret, BitVec.ofNat 8 st.dstop.isSome.toNat, st.halt.elim 0#8 fun h => h.reason.code] ++
    leBytes 2 (st.halt.elim 0xFFFF HaltInfo.index) ++ leBytes 2 0 ++
    leBytes 4 (bandExtra (st.halt.bind HaltInfo.band)).toNat ++ leBytes 4 (bandExtra st.skip).toNat ++
    leBytes 2 st.nextOpen.toNat ++ leBytes 2 st.nextEmit.toNat ++
    [BitVec.ofNat 8 (s.openCount i), BitVec.ofNat 8 (s.pagesHeld i), BitVec.ofNat 8 st.marks.length, 0#8] ++
    leBytes 2 (st.ring.elim 0 Ring.head) ++ leBytes 2 (st.ring.elim 0 Ring.tail) ++
    [l.state.code, BitVec.ofNat 8 l.credit, 0#8, 0#8] ++
    leBytes 2 l.stale ++ leBytes 2 l.bad ++ leBytes 2 l.resent ++ List.replicate 26 0#8

/-- The snapshot of an UNCONFIGURED stream (R176). -/
def unconfiguredSnapshot : List Byte :=
  [0#8, 0xFF#8, 0#8, 0#8, 0xFF#8, 0xFF#8, 0#8, 0#8] ++ List.replicate 8 0xFF#8 ++ List.replicate 48 0#8

/-- What QUERY_STREAM writes (R176). -/
def State.querySnapshot (s : State) (i : StreamId) : List Byte :=
  if (s.stream i).st = .unconfigured then unconfiguredSnapshot else s.snapshot i

/-- QUERY_STREAM (R52, R170): the snapshot's write is issued, then the completion is due; while the write waits, so does the
completion. -/
def execQueryStream (s : State) : Host.Outcome State Fault Refusal :=
  match s.commandFor fun bs => recCommand bs == some .query with
  | none => .next s
  | some a =>
    let addr := le64 a.bytes 8
    .next (s.runCommand a .query (fun _ _ => true) (aligned64 addr) fun i t =>
      if t.port.canIssue then
        ({ t with port := { t.port with sent := t.port.sent ++ [.write addr (s.querySnapshot i)] } } : State).complete a
          .ok 0#32
      else
        { t.leaveCommand a with
          admin := .awaiting (a.entry .ok 0#32) (recTarget a.bytes)
          port := { t.port with waiting := t.port.waiting ++ [.snapshot addr (s.querySnapshot i)] } })

end Sys2Proof.Machine
end

