-- ==== Sys2Proof/Machine/HandOver.lean ====
section
/-!
DEFINITION. Meanings: the hand-over of a latched record, one row for each kind and for the two that have none (chapter 3).
-/

namespace Sys2Proof.Machine

/-! ## The arbiter's choice (R63, R64) -/

/-- Whether an OPEN_BAND with a good verdict may be handed over: quota for P more pages, and a FREE slot (R64). -/
def State.bandFits (s : State) (i : StreamId) : Bool :=
  (s.stream i).cfg.any fun c => decide (s.pagesHeld i + c.pages ≤ c.quota) && s.lowestFree.isSome

/-- Whether a record with a good verdict is eligible (R64). -/
def State.goodEligible (s : State) (i : StreamId) (bs : List Byte) : Bool :=
  match RecKind.ofCode (recCode bs) with
  | some .openBand => s.bandFits i
  | some .mark => !recEmitted bs || decide ((s.stream i).marks.length < Config.markLimit)
  | some .fillRect => true
  | some .place => true
  | some .copyRect => true
  | some .closeBand => true
  | some .discardBand => true
  | none => true

/-- Whether the stream's latch holds an eligible record or a fault (R64). -/
def State.eligible (s : State) (i : StreamId) : Bool :=
  match (s.stream i).latch with
  | .faulted _ => true
  | .held _ bs v =>
    match v with
    | .good => s.goodEligible i bs
    | .badKind => true
    | .badField => true
  | .empty => false
  | .fetching _ => false

/-- The hand-over arbiter's choice with the raster unit FREE, round-robin (R63). -/
def State.handOverChoice (s : State) : Option StreamId :=
  if s.port.part = .attached ∧ s.raster = .free then
    (roundFrom s.intake.handNext).find? fun i => (s.stream i).takesRecords && s.eligible i
  else none

/-- A chosen record: its stream and configuration, its latch's contents, and the ring's head just after it is consumed (R73). -/
structure Hand where
  stream : StreamId
  cfg : StreamCfg
  index : Nat
  bytes : List Byte
  verdict : Verdict
  head : Nat
  deriving DecidableEq, Repr

/-- The chosen record, if it is one that the row takes. -/
def State.handFor (s : State) (row : Verdict → List Byte → Bool) : Option Hand :=
  match s.handOverChoice with
  | none => none
  | some i =>
    match (s.stream i).latch, (s.stream i).cfg, (s.stream i).ring with
    | .held n bs v, some c, some r =>
      if row v bs then
        some { stream := i, cfg := c, index := n, bytes := bs, verdict := v, head := r.advance.head }
      else none
    | _, _, _ => none

/-! ## Consumption and entries (R71 to R73) -/

/-- The arbiter's next choice starts after stream `i` (R63). -/
def Intake.turn (i : StreamId) (n : Intake) : Intake := { n with handNext := i + 1 }

/-- The record is consumed: the ring head advances by one and the latch becomes EMPTY (R71). -/
def State.consumeRecord (i : StreamId) (s : State) : State :=
  { s.mapStream i (fun st => { st with latch := .empty, ring := st.ring.map Ring.advance }) with
    intake := s.intake.turn i }

/-- The raster unit is HOLDING until the entry is admitted (R70, R75). -/
def State.holdEntry (i : StreamId) (e : Entry) (s : State) : State :=
  ({ s with raster := .holding i e } : State).admitAsMade .raster

/-- The entry of a record at its hand-over (R73). -/
def Hand.entry (h : Hand) (st : Status) (extra : BitVec 32) : Entry :=
  recordEntry h.stream (recCode h.bytes) (recTag h.bytes) h.index h.head st false extra

/-- The record is consumed without a failure; its entry is posted if one is owed, and otherwise the raster unit is free
again at once (R70, R71). -/
def State.finishRecord (h : Hand) (owed : Bool) (st : Status) (extra : BitVec 32) (s : State) : State :=
  let t := s.consumeRecord h.stream
  if owed then t.holdEntry h.stream (h.entry st extra) else t

/-- The record fails: it is consumed, the stream halts with RECORD_ERROR, and the entry is posted whatever NOTIFY is (R67,
R69). -/
def State.failRecord (h : Hand) (st : Status) (band : Option Band) (s : State) : State :=
  ((s.consumeRecord h.stream).halt h.stream { reason := .recordError, index := h.index, band := band }).holdEntry h.stream
    (h.entry st (bandExtra band))

/-! ## The stages (R65) -/

/-- RING_FAULT: the chosen latch is FAULTED (R66). -/
def State.ringFault (i : StreamId) (n : Nat) (s : State) : State :=
  (({ s with intake := s.intake.turn i } : State).halt i { reason := .ringFault, index := n, band := none }).holdEntry i
    (recordEntry i Config.noKind 0#32 n n .ringFault false Config.noValue)

/-- Whether a record names the skip band (R68). -/
def namesBand (k : RecKind) (bs : List Byte) (band : Band) : Bool :=
  bandNamed k bs == some band || (k == .copyRect && recSourceBand bs == band)

/-- Whether the record names the stream's skip band (R68). -/
def State.skips (s : State) (i : StreamId) (k : RecKind) (bs : List Byte) : Bool :=
  (s.stream i).skip.any (namesBand k bs)

/-- The kinds that end a skip (R45, R68). -/
def RecKind.endsBand (k : RecKind) : Bool := k == .closeBand || k == .discardBand

/-- A record that names the skip band: consumed with SKIPPED; a CLOSE_BAND or DISCARD_BAND ends the skip (R68). -/
def State.skipRecord (h : Hand) (k : RecKind) (s : State) : State :=
  (s.mapStream h.stream fun st => { st with skip := if k.endsBand then none else st.skip }).finishRecord h
    (k.endsBand || recNotify h.bytes) .skipped (bandExtra (bandNamed k h.bytes))

/-- The hand-over of a record of kind `k`: verdict, skip band, then its band checks and effect (R65). -/
def State.handOver (k : RecKind) (effect : Hand → State → State) (s : State) : State :=
  match s.handFor fun v bs => v != .badKind && RecKind.ofCode (recCode bs) == some k with
  | none => s
  | some h =>
    if h.verdict = .badField then s.failRecord h .badField (bandNamed k h.bytes)
    else if s.skips h.stream k h.bytes then s.skipRecord h k
    else effect h s

/-- The op record of a chosen record (R76). -/
def Hand.op (h : Hand) (kind : OpKind) (slot : SlotId) (area : Area) : Op :=
  { kind := kind, stream := h.stream, index := h.index, tag := recTag h.bytes, notify := recNotify h.bytes
    entryKind := recCode h.bytes, entryHead := h.head, slot := slot, band := recBand h.bytes
    width := h.cfg.width, height := h.cfg.height, depth := h.cfg.depth, area := area
    rowsDone := 0, fault := false, readsOut := 0, rowData := [] }

/-- The record is consumed and its op begins (R70, R71, R76). -/
def State.beginOp (h : Hand) (kind : OpKind) (slot : SlotId) (area : Area) (s : State) : State :=
  (s.consumeRecord h.stream).opGoesOn (h.op kind slot area)

/-- The band checks of R69 for a record whose band must be OPEN, then its effect on the slot. -/
def State.onOpen (h : Hand) (effect : SlotId → State → State) (s : State) : State :=
  match s.openSlot h.stream (recBand h.bytes) with
  | none => s.failRecord h .bandNotOpen (some (recBand h.bytes))
  | some k => effect k s

/-! ## The rows -/

/-- RING_FAULT (R66). -/
def execRingFault (s : State) : Host.Outcome State Fault Refusal :=
  match s.handOverChoice with
  | none => .next s
  | some i =>
    match (s.stream i).latch with
    | .faulted n => .next (s.ringFault i n)
    | .empty => .next s
    | .fetching _ => .next s
    | .held _ _ _ => .next s

/-- UNKNOWN_RECORD_KIND: the halt names no band, and the entry carries the kind as read (R67). -/
def execUnknownRecordKind (s : State) : Host.Outcome State Fault Refusal :=
  match s.handFor fun v _ => v == .badKind with
  | none => .next s
  | some h => .next (s.failRecord h .badKind none)

/-- OPEN_BAND (R5, R9, R54, R69, R70). -/
def execOpenBand (s : State) : Host.Outcome State Fault Refusal :=
  .next (s.handOver .openBand fun h s =>
    let band := recBand h.bytes
    if band ≠ (s.stream h.stream).nextOpen then s.failRecord h .bandNumber (some band)
    else if h.cfg.window ≤ s.openCount h.stream then s.failRecord h .windowFull (some band)
    else
      match s.lowestFree with
      | none => s
      | some k =>
        let t := s.openNew h.stream k band h.cfg.pages
        match recFill h.bytes with
        | some v => t.beginOp h (.initialFill v) k (wholeArea h.cfg.width h.cfg.height)
        | none => t.finishRecord h (recNotify h.bytes) .ok (band.setWidth 32))

/-- FILL_RECT (R69, R70, R80). -/
def execFillRect (s : State) : Host.Outcome State Fault Refusal :=
  .next (s.handOver .fillRect fun h s => s.onOpen h fun k =>
    State.beginOp h (.fillRect (recRect h.bytes) (recValue h.bytes) (recCombine h.bytes)) k
      (clipRect (recX h.bytes) (recY h.bytes) (recW h.bytes) (recH h.bytes) h.cfg.width h.cfg.height))

/-- PLACE (R69, R70, R82). -/
def execPlace (s : State) : Host.Outcome State Fault Refusal :=
  .next (s.handOver .place fun h s => s.onOpen h fun k =>
    State.beginOp h
      (.place (recRect h.bytes) (recSource h.bytes) (recPitch h.bytes) (recSourceDepth h.bytes) (recValue h.bytes)
        (recCombine h.bytes)) k
      (clipRect (recX h.bytes) (recY h.bytes) (recW h.bytes) (recH h.bytes) h.cfg.width h.cfg.height))

/-- COPY_RECT (R69, R70, R86): the destination band is checked before the source band. -/
def execCopyRect (s : State) : Host.Outcome State Fault Refusal :=
  .next (s.handOver .copyRect fun h s => s.onOpen h fun k s =>
    match s.openSlot h.stream (recSourceBand h.bytes) with
    | none => s.failRecord h .bandNotOpen (some (recBand h.bytes))
    | some src =>
      s.beginOp h
        (.copyRect src (recRect h.bytes) (recSx h.bytes) (recSy h.bytes) (recCombine h.bytes)) k
        (clipCopy (recSx h.bytes) (recSy h.bytes) (recX h.bytes) (recY h.bytes) (recW h.bytes) (recH h.bytes)
          h.cfg.width h.cfg.height))

/-- CLOSE_BAND: no entry of its own when it succeeds (R10, R70, R72). -/
def execCloseBand (s : State) : Host.Outcome State Fault Refusal :=
  .next (s.handOver .closeBand fun h s => s.onOpen h fun k s =>
    (s.mapSlot k fun b =>
      { b with st := .closed, notify := recNotify h.bytes, tag := some (recTag h.bytes) }).finishRecord h false .ok 0#32)

/-- DISCARD_BAND (R12, R70, R72). -/
def execDiscardBand (s : State) : Host.Outcome State Fault Refusal :=
  .next (s.handOver .discardBand fun h s => s.onOpen h fun k s =>
    (s.discardSlot k).finishRecord h (recNotify h.bytes) .ok ((recBand h.bytes).setWidth 32))

/-- MARK: RENDERED, and EMITTED without a live band, complete at hand-over; another EMITTED joins the mark list (R24, R70). -/
def execMark (s : State) : Host.Outcome State Fault Refusal :=
  .next (s.handOver .mark fun h s =>
    let st := s.stream h.stream
    let last := st.nextOpen - 1
    if recEmitted h.bytes = false ∨ st.nextEmit = st.nextOpen then s.finishRecord h true .ok (last.setWidth 32)
    else
      let m : Mark := { tag := recTag h.bytes, index := h.index, head := h.head, boundary := last, st := .boundary }
      (s.mapStream h.stream fun st => { st with marks := st.marks ++ [m] }).finishRecord h false .ok 0#32)

end Sys2Proof.Machine
end

