-- ==== Sys2Proof/Machine/HostReads.lean ====
section
/-!
DEFINITION. Meanings: completions and expiries of host reads, and the two record fetches.
-/

namespace Sys2Proof.Machine

/-- READ_COMPLETION (R169). -/
def execReadCompletion (request offset : Nat) (data : List Byte) (good : Bool) (s : State) :
    Host.Outcome State Fault Refusal :=
  .next (s.takeCompletion request offset data good)

/-- READ_LIMIT_EXPIRY: an outstanding request finishes with a fault (R169). -/
def execReadLimitExpiry (request : Nat) (s : State) : Host.Outcome State Fault Refusal :=
  match s.port.request request with
  | some r => .next (s.readEnds r none)
  | none => .next s

/-- The address of entry `n` of a ring of 64-byte records (R139). -/
def Ring.entryAddr (r : Ring) (n : Nat) : BitVec 64 := r.base + BitVec.ofNat 64 (64 * n)

/-- ADMIN_FETCH: an IDLE admin unit asks for the record at the head if head and tail differ (R29). -/
def execAdminFetch (s : State) : Host.Outcome State Fault Refusal :=
  match s.ring.admin with
  | some r =>
    if s.port.part = .attached ∧ s.admin = .idle ∧ r.head ≠ r.tail then
      .next { s with admin := .fetching, port := s.port.askRead .admin (r.entryAddr r.head) 64 }
    else .next s
  | none => .next s

/-- Whether the fetch arbiter may choose the stream (R59). -/
def Stream.fetchable (st : Stream) : Bool :=
  st.latch == .empty && st.takesRecords && st.ring.any fun r => !r.isEmpty

/-- The fetch arbiter's choice, round-robin, with no read outstanding (R59). -/
def State.fetchChoice (s : State) : Option StreamId :=
  if s.port.part = .attached ∧ s.intake.fetchRead = none then
    (roundFrom s.intake.fetchNext).find? fun i => (s.stream i).fetchable
  else none

/-- RECORD_FETCH (R59). -/
def execRecordFetch (s : State) : Host.Outcome State Fault Refusal :=
  match s.fetchChoice with
  | none => .next s
  | some i =>
    match (s.stream i).ring with
    | none => .next s
    | some r =>
      let t := s.mapStream i fun st => { st with latch := .fetching r.head }
      .next { t with
        intake := { s.intake with
          fetchRead := some { stream := i, index := r.head, dropped := false }, fetchNext := i + 1 }
        port := s.port.askRead .fetch (r.entryAddr r.head) 64 }

end Sys2Proof.Machine
end

