-- ==== Sys2Proof/Machine/LaneSteps.lean ====
section
/-!
DEFINITION. Meanings: the lanes' own steps, the frames received from the heads, and the lane timers (chapters 5 and 6).
-/

namespace Sys2Proof.Machine

/-- Whether a SYNCING lane may send its SYNC now (R106, R133). -/
def Lane.maySync (l : Lane) : Bool :=
  l.state == .syncing && l.out.isNone && l.latch.isNone && !l.stopPending

/-- SYNC_SEND (R106). -/
def execSyncSend (lane : StreamId) (s : State) : Host.Outcome State Fault Refusal :=
  match (s.lane lane).params with
  | none => .next s
  | some p =>
    if s.port.part = .attached ∧ (s.lane lane).maySync = true then
      .next (s.mapLane lane (Lane.send s.bands lane (.sync p.chunkSize)))
    else .next s

/-- BAND_START (R112, R113). -/
def execBandStart (lane : StreamId) (s : State) : Host.Outcome State Fault Refusal :=
  match s.startableSlot lane with
  | none => .next s
  | some k => .next (s.startBand lane k)

/-- FRAME_SENT: the transmission under way ends (R94, R101, R102). -/
def execFrameSent (lane : StreamId) (s : State) : Host.Outcome State Fault Refusal :=
  .next (s.mapLane lane (Lane.transmissionEnds s.bands lane))

/-- ACCEPT (R100, R101). -/
def execAccept (lane : StreamId) (seq : Seq) (s : State) : Host.Outcome State Fault Refusal :=
  .next (s.reply lane seq (State.acceptTaken lane))

/-- WAIT (R100, R103). -/
def execWait (lane : StreamId) (seq : Seq) (s : State) : Host.Outcome State Fault Refusal :=
  .next (s.reply lane seq (State.waitTaken lane))

/-- REFUSE (R100, R104). -/
def execRefuse (lane : StreamId) (seq : Seq) (reason : BitVec 4) (s : State) : Host.Outcome State Fault Refusal :=
  .next (s.reply lane seq (State.refuseTaken lane reason))

/-- CREDIT (R109); a grant of 0 makes the frame bad (R97). -/
def execCredit (lane : StreamId) (grant : Byte) (s : State) : Host.Outcome State Fault Refusal :=
  .next (if grant = 0#8 then s.countBad lane else s.takeCredit lane grant)

/-- BAD_FRAME: a frame that R97 calls bad is discarded and counted; bytes that are a good frame are taken as that frame
(R97, R100, R109). -/
def execBadFrame (lane : StreamId) (bytes : List Byte) (s : State) : Host.Outcome State Fault Refusal :=
  match parseHead bytes with
  | none => .next (s.countBad lane)
  | some (.accept seq) => .next (s.reply lane seq (State.acceptTaken lane))
  | some (.wait seq) => .next (s.reply lane seq (State.waitTaken lane))
  | some (.refuse seq reason) => .next (s.reply lane seq (State.refuseTaken lane reason))
  | some (.credit grant) => .next (s.takeCredit lane grant)

/-- REPLY_TIMER_EXPIRY: the timer runs only with the exchange in REPLY and the frame sent (R102). -/
def execReplyTimerExpiry (lane : StreamId) (s : State) : Host.Outcome State Fault Refusal :=
  match (s.lane lane).out with
  | none => .next s
  | some o => .next (if o.paused = false ∧ o.timer = true then s.replyExpired lane o else s)

/-- WAIT_TIMER_EXPIRY: the timer runs exactly while the exchange is PAUSED; the frame is transmitted again (R103). -/
def execWaitTimerExpiry (lane : StreamId) (s : State) : Host.Outcome State Fault Refusal :=
  match (s.lane lane).out with
  | none => .next s
  | some o => .next (if o.paused then s.mapLane lane (Lane.transmit s.bands lane) else s)

/-- STARVE_TIMER_EXPIRY: the timer runs exactly while R121's conditions hold; next-emit becomes the starved band and STARVED
is posted (R122). -/
def execStarveTimerExpiry (lane : StreamId) (s : State) : Host.Outcome State Fault Refusal :=
  let band := (s.stream lane).nextEmit
  .next (if s.starveArmed lane then
    (s.mapLane lane fun l => { l with starved := some band }).postEvent lane (.starved band)
  else s)

end Sys2Proof.Machine
end

