-- ==== Sys2Proof/Machine/Power.lean ====
section
/-!
DEFINITION. Meanings: power-on, the resets, the configuration space and the PCIe link.
-/

namespace Sys2Proof.Machine

/-- POWER_ON: band memory is zeroed and every block takes its reset values (R3, R160, R167). -/
def execPowerOn (s : State) : Host.Outcome State Fault Refusal :=
  .next { State.reset with pending := s.pending }

/-- FUNDAMENTAL_RESET: a function reset, and the configuration space returns to its initial values (R167). -/
def execFundamentalReset (s : State) : Host.Outcome State Fault Refusal :=
  let r := s.functionReset
  .next { r with port := { r.port with busMaster := false, messages := false } }

/-- FUNCTION_RESET: CONTROL written with RESET 1; the ATTACH bit of the write has no effect (R158, R166). -/
def execFunctionReset (attach : Bool) (s : State) : Host.Outcome State Fault Refusal :=
  .next (s.writeControl (if attach then 3#32 else 2#32))

/-- What is left waiting when bus mastering is enabled with the link down: a message's turn has come and it is not sent, then or
later (R170); requests, entries and snapshots wait for the link (log 8). -/
def Port.dropMessages (p : Port) : Port :=
  { p with waiting := p.waiting.filter fun a => a != .message }

/-- CONFIG_BUS_MASTER_ENABLE: the enables given become set; once requests can be issued, what waits is issued in order (R168,
R170). -/
def execConfigBusMasterEnable (busMaster messages : Bool) (s : State) : Host.Outcome State Fault Refusal :=
  let t := { s with port := { s.port with
    busMaster := s.port.busMaster || busMaster, messages := s.port.messages || messages } }
  .next (if t.port.canIssue then t.drainWaiting
    else if t.port.busMaster then { t with port := t.port.dropMessages }
    else t)

/-- CONFIG_BUS_MASTER_DISABLE: the enables given become clear; requests and posted writes asked for from then on wait, and
messages are not sent (R168, R170). -/
def execConfigBusMasterDisable (busMaster messages : Bool) (s : State) : Host.Outcome State Fault Refusal :=
  .next { s with port := { s.port with
    busMaster := s.port.busMaster && !busMaster, messages := s.port.messages && !messages } }

/-- LINK_LOSS: reads already issued end by expiry, and an ATTACHED part becomes FATAL with LINK_LOSS (R163, R164, R171). -/
def execLinkLoss (s : State) : Host.Outcome State Fault Refusal :=
  let t := { s with port := { s.port with
    linkUp := false, outstanding := s.port.outstanding.map fun r => { r with lost := true } } }
  .next (if s.port.part = .attached then t.becomeFatal .linkLoss else t)

/-- LINK_UP: requests, posted writes and messages can travel again; a FATAL part stays FATAL (R172). -/
def execLinkUp (s : State) : Host.Outcome State Fault Refusal :=
  let t := { s with port := { s.port with linkUp := true } }
  .next (if t.port.canIssue then t.drainWaiting else t)

end Sys2Proof.Machine
end

