-- ==== Sys2Proof/Machine/RingSteps.lean ====
section
/-!
DEFINITION. Meanings: the row writes of the raster unit, and the ring unit's steps (admission, entry write, coalescing
timer).
-/

namespace Sys2Proof.Machine

/-- Whether an op's lines are written by ROW_WRITE; those of a PLACE are written as their data arrives (R78, R83). -/
def OpKind.filled : OpKind → Bool
  | .initialFill _ => true
  | .fillRect _ _ _ => true
  | .place _ _ _ _ _ _ => false
  | .copyRect _ _ _ _ _ => true

/-- ROW_WRITE (R78, R88): one line, and the end of the op after the last. -/
def execRowWrite (s : State) : Host.Outcome State Fault Refusal :=
  match s.raster with
  | .executing op => .next (if s.port.part = .attached ∧ op.kind.filled = true then s.writeRow op else s)
  | .free => .next s
  | .holding _ _ => .next s
  | .posting _ _ => .next s

/-- A stream whose offer was admitted offers its next due mark (R25, R150). -/
def State.offerOn (p : Producer) (s : State) : State :=
  match p with
  | .stream i => s.offerStream i
  | .lane _ => s
  | .raster => s
  | .admin => s

/-- ENTRY_ADMISSION: into a free place the arbiter admits the offer it chooses (R151). -/
def execEntryAdmission (s : State) : Host.Outcome State Fault Refusal :=
  if s.port.part = .attached ∧ s.ring.queue.length < Config.queueLimit then
    match s.chooseOffer with
    | none => .next s
    | some p => .next ((s.admitOffer p).offerOn p)
  else .next s

/-- COMPLETION_ENTRY_WRITE: with room in the ring, the write of the entry at the queue's head is asked for; it is issued at
once, or waits for bus mastering (R147, R170). -/
def execCompletionEntryWrite (s : State) : Host.Outcome State Fault Refusal :=
  if s.port.part = .attached ∧ s.ring.queue ≠ [] ∧ s.ring.comp.any CompRing.room = true ∧ .entry ∉ s.port.waiting then
    .next (if s.port.canIssue then s.issueEntry
      else { s with port := { s.port with waiting := s.port.waiting ++ [.entry] } })
  else .next s

/-- COALESCE_TIMER_EXPIRY: COMPLETION is set and the counter becomes 0; in FATAL too (R152, R154). -/
def execCoalesceTimerExpiry (s : State) : Host.Outcome State Fault Refusal :=
  match s.ring.coalesce with
  | none => .next s
  | some c =>
    .next (if c.timer then
      State.raise .ofCompletion { s with ring := { s.ring with coalesce := some { c with counter := 0, timer := false } } }
    else s)

end Sys2Proof.Machine
end

