-- ==== Sys2Proof/Machine/StreamSteps.lean ====
section
/-!
DEFINITION. Meanings: stream control's own steps (drain auto-close, drain end, and the waits of the abort procedure).
-/

namespace Sys2Proof.Machine

/-- DRAIN_AUTO_CLOSE: a DRAINING stream found input-quiet has its OPEN slots closed (R11, R38). -/
def execDrainAutoClose (stream : StreamId) (s : State) : Host.Outcome State Fault Refusal :=
  if s.port.part = .attached ∧ (s.stream stream).st = .draining ∧ s.inputQuiet stream = true then
    .next (s.autoClose stream)
  else .next s

/-- DRAIN_END (R39). -/
def execDrainEnd (stream : StreamId) (s : State) : Host.Outcome State Fault Refusal :=
  .next (s.lookForDrainEnd stream)

/-- Steps 4 and 5 of the abort: the stream's slots become FREE, and its marks that are not yet due become due ABORTED (R17,
R26, R49). -/
def State.abortBands (i : StreamId) (s : State) : State :=
  ((s.freeAll i).mapStream i fun st =>
    { st with
      marks := st.marks.map fun m => { m with st := if m.st = .boundary then .dueAborted else m.st }
      abortAt := some .marks }).offerStream i

/-- Step 6 of the abort: the deferred STOP, if present, is due with ABORTED and next-emit (R49). -/
def State.abortStop (i : StreamId) (s : State) : State :=
  (s.mapStream i fun st =>
    { st with
      dstop := st.dstop.map fun d => { d with due := d.due.or (some (.aborted, st.nextEmit)) }
      abortAt := some .stop }).offerStream i

/-- Step 7 of the abort: the ABORT completion is due (R49); its admission ends the abort (R50). -/
def State.abortEnd (i : StreamId) (s : State) : State :=
  (s.mapStream i fun st =>
    { st with dabort := st.dabort.map fun d => { d with due := true }, abortAt := some .abort }).offerStream i

/-- ABORT_STEP: the wait at which the stream's abort stands is passed, if what it waits for has come (R47 to R49). -/
def execAbortStep (stream : StreamId) (s : State) : Host.Outcome State Fault Refusal :=
  if s.port.part = .attached ∧ (s.stream stream).st = .aborting then
    match (s.stream stream).abortAt with
    | some .op =>
      .next (if s.opInFlight stream then s
        else (s.stopLane stream).mapStream stream fun st => { st with abortAt := some .lane })
    | some .lane => .next (if (s.lane stream).state = .offline then s.abortBands stream else s)
    | some .marks => .next (if (s.stream stream).marks = [] then s.abortStop stream else s)
    | some .stop => .next (if (s.stream stream).dstop = none then s.abortEnd stream else s)
    | some .abort => .next s
    | none => .next s
  else .next s

end Sys2Proof.Machine
end

