-- ==== Sys2Proof/Machine/Window.lean ====
section
/-!
DEFINITION. Meanings: the register window's writes (attach, cancel, detach, events, notify) and the end of a detach.
-/

namespace Sys2Proof.Machine

/-- ATTACH: CONTROL written with ATTACH 1 (R158, R161). -/
def execAttach (s : State) : Host.Outcome State Fault Refusal := .next (s.writeControl 1#32)

/-- ATTACH_CANCEL: CONTROL written with ATTACH 0; what it does is the part state's (R158, R163). -/
def execAttachCancel (s : State) : Host.Outcome State Fault Refusal := .next (s.writeControl 0#32)

/-- DETACH: CONTROL written with ATTACH 0; what it does is the part state's (R158, R164). -/
def execDetach (s : State) : Host.Outcome State Fault Refusal := .next (s.writeControl 0#32)

/-- DETACH_END: in DETACHING with every lane OFFLINE and no read outstanding, the part becomes DETACHED with every block at
its initial values; the window registers, causes and codes are kept (R165). -/
def execDetachEnd (s : State) : Host.Outcome State Fault Refusal :=
  if s.port.part = .detaching ∧ (s.lanes.all fun l => l.state == .offline) = true ∧ s.port.outstanding = [] then
    .next { s.initialBlocks with port := { s.port with part := .detached, readLimit := none } }
  else .next s

/-- NOTIFY_ADMIN_TAIL (R143). -/
def execNotifyAdminTail (index : BitVec 16) (s : State) : Host.Outcome State Fault Refusal :=
  .next (s.notify 0#8 index)

/-- NOTIFY_STREAM_TAIL (R144): queue id 1 + stream. -/
def execNotifyStreamTail (stream : StreamId) (index : BitVec 16) (s : State) : Host.Outcome State Fault Refusal :=
  .next (s.notify (BitVec.ofNat 8 (1 + stream.val)) index)

/-- NOTIFY_RELEASE (R145). -/
def execNotifyRelease (index : BitVec 16) (s : State) : Host.Outcome State Fault Refusal :=
  .next (s.notify 7#8 index)

/-- NOTIFY_UNUSED_QUEUE (R142). -/
def execNotifyUnusedQueue (queue : BitVec 8) (index : BitVec 16) (s : State) : Host.Outcome State Fault Refusal :=
  .next (s.notify queue index)

/-- EVENT_CAUSE_WRITE (R155). -/
def execEventCauseWrite (value : BitVec 32) (s : State) : Host.Outcome State Fault Refusal :=
  .next (s.writeCause value)

/-- EVENT_MASK_WRITE (R156). -/
def execEventMaskWrite (value : BitVec 32) (s : State) : Host.Outcome State Fault Refusal :=
  .next (s.writeMask value)

/-- REGISTER_WRITE (R157). -/
def execRegisterWrite (offset : BitVec 12) (size : Nat) (value : BitVec 32) (s : State) :
    Host.Outcome State Fault Refusal :=
  .next (s.writeRegister offset size value)

end Sys2Proof.Machine
end

