-- ==== Sys2Proof/Machine/Dispatch.lean ====
section
/-!
DEFINITION. The dispatch: one arm per command, each one call of the command's meaning.
-/

namespace Sys2Proof.Machine

/-- The effect of a command on everything but the queue. -/
def exec (i : Instr) (s : State) : Host.Outcome State Fault Refusal :=
  match i with
  | .powerOn => Sys2Proof.Machine.execPowerOn s
  | .fundamentalReset => Sys2Proof.Machine.execFundamentalReset s
  | .functionReset attach => Sys2Proof.Machine.execFunctionReset attach s
  | .attach => Sys2Proof.Machine.execAttach s
  | .attachCancel => Sys2Proof.Machine.execAttachCancel s
  | .detach => Sys2Proof.Machine.execDetach s
  | .detachEnd => Sys2Proof.Machine.execDetachEnd s
  | .notifyAdminTail index => Sys2Proof.Machine.execNotifyAdminTail index s
  | .notifyStreamTail stream index => Sys2Proof.Machine.execNotifyStreamTail stream index s
  | .notifyRelease index => Sys2Proof.Machine.execNotifyRelease index s
  | .eventCauseWrite value => Sys2Proof.Machine.execEventCauseWrite value s
  | .eventMaskWrite value => Sys2Proof.Machine.execEventMaskWrite value s
  | .registerWrite offset size value => Sys2Proof.Machine.execRegisterWrite offset size value s
  | .configBusMasterEnable busMaster messages => Sys2Proof.Machine.execConfigBusMasterEnable busMaster messages s
  | .linkLoss => Sys2Proof.Machine.execLinkLoss s
  | .readCompletion request offset data good => Sys2Proof.Machine.execReadCompletion request offset data good s
  | .readLimitExpiry request => Sys2Proof.Machine.execReadLimitExpiry request s
  | .adminFetch => Sys2Proof.Machine.execAdminFetch s
  | .unknownCommand => Sys2Proof.Machine.execUnknownCommand s
  | .configureStream => Sys2Proof.Machine.execConfigureStream s
  | .startStream => Sys2Proof.Machine.execStartStream s
  | .stopStream => Sys2Proof.Machine.execStopStream s
  | .abortStream => Sys2Proof.Machine.execAbortStream s
  | .releaseStream => Sys2Proof.Machine.execReleaseStream s
  | .clearStreamResume => Sys2Proof.Machine.execClearStreamResume s
  | .clearStreamSkipBand => Sys2Proof.Machine.execClearStreamSkipBand s
  | .clearLaneResend => Sys2Proof.Machine.execClearLaneResend s
  | .clearLaneSkip => Sys2Proof.Machine.execClearLaneSkip s
  | .queryStream => Sys2Proof.Machine.execQueryStream s
  | .recordFetch => Sys2Proof.Machine.execRecordFetch s
  | .ringFault => Sys2Proof.Machine.execRingFault s
  | .unknownRecordKind => Sys2Proof.Machine.execUnknownRecordKind s
  | .openBand => Sys2Proof.Machine.execOpenBand s
  | .fillRect => Sys2Proof.Machine.execFillRect s
  | .place => Sys2Proof.Machine.execPlace s
  | .copyRect => Sys2Proof.Machine.execCopyRect s
  | .closeBand => Sys2Proof.Machine.execCloseBand s
  | .discardBand => Sys2Proof.Machine.execDiscardBand s
  | .mark => Sys2Proof.Machine.execMark s
  | .rowWrite => Sys2Proof.Machine.execRowWrite s
  | .entryAdmission => Sys2Proof.Machine.execEntryAdmission s
  | .completionEntryWrite => Sys2Proof.Machine.execCompletionEntryWrite s
  | .coalesceTimerExpiry => Sys2Proof.Machine.execCoalesceTimerExpiry s
  | .drainAutoClose stream => Sys2Proof.Machine.execDrainAutoClose stream s
  | .drainEnd stream => Sys2Proof.Machine.execDrainEnd stream s
  | .abortStep stream => Sys2Proof.Machine.execAbortStep stream s
  | .syncSend lane => Sys2Proof.Machine.execSyncSend lane s
  | .bandStart lane => Sys2Proof.Machine.execBandStart lane s
  | .frameSent lane => Sys2Proof.Machine.execFrameSent lane s
  | .accept lane seq => Sys2Proof.Machine.execAccept lane seq s
  | .wait lane seq => Sys2Proof.Machine.execWait lane seq s
  | .refuse lane seq reason => Sys2Proof.Machine.execRefuse lane seq reason s
  | .credit lane grant => Sys2Proof.Machine.execCredit lane grant s
  | .badFrame lane bytes => Sys2Proof.Machine.execBadFrame lane bytes s
  | .replyTimerExpiry lane => Sys2Proof.Machine.execReplyTimerExpiry lane s
  | .waitTimerExpiry lane => Sys2Proof.Machine.execWaitTimerExpiry lane s
  | .starveTimerExpiry lane => Sys2Proof.Machine.execStarveTimerExpiry lane s
  | .linkUp => Sys2Proof.Machine.execLinkUp s
  | .configBusMasterDisable busMaster messages => Sys2Proof.Machine.execConfigBusMasterDisable busMaster messages s
  | .notifyUnusedQueue queue index => Sys2Proof.Machine.execNotifyUnusedQueue queue index s

end Sys2Proof.Machine
end

