-- ==== Sys2Proof/Safety.lean ====
section
/-!
DEFINITION. The laws the spec gives the part, as properties of a state, and the words in which statements speak of a
command that waits, a record that is chosen, and what a step leaves unchanged.
-/

namespace Sys2Proof.Machine

/-! ## Laws of the band manager -/

/-- R4: every page is in exactly one place, the free-page list or the page list of one slot. -/
def State.PoolLaw (s : State) : Prop :=
  (s.bands.free ++ s.bands.live.flatMap BandSlot.pages).Perm allPages

/-- R2, R3: band memory is in its canonical form, and every listed byte lies in one of the 64 pages. -/
def State.MemoryLaw (s : State) : Prop :=
  Memory.wf s.bands.mem ∧ ∀ c ∈ s.bands.mem, c.1 < 64 * Config.pageBytes

/-- R20: a live band's distance from next-emit is less than that of next-open. -/
def State.LiveLaw (s : State) : Prop :=
  ∀ k b, s.slot k = some b → bandDist b.band (s.stream b.stream).nextEmit
    < bandDist (s.stream b.stream).nextOpen (s.stream b.stream).nextEmit

/-- R9: no two slots that are not FREE carry the same stream and the same band number. -/
def State.UniqueLaw (s : State) : Prop :=
  ∀ k k' b b', s.slot k = some b → s.slot k' = some b' → b.stream = b'.stream → b.band = b'.band → k = k'

/-- R13: the band number of a SENDING slot equals its stream's next-emit. -/
def State.SendingLaw (s : State) : Prop :=
  ∀ k b, s.slot k = some b → b.st = .sending → b.band = (s.stream b.stream).nextEmit

/-- R20: while a stream is RUNNING, DRAINING or HALTED, every number from next-emit up to next-open is a live band's. -/
def State.ExactLaw (s : State) : Prop :=
  ∀ i, (s.stream i).emits = true → ∀ n, n < bandDist (s.stream i).nextOpen (s.stream i).nextEmit →
    ∃ k b, s.slot k = some b ∧ b.stream = i ∧ bandDist b.band (s.stream i).nextEmit = n

/-- Whether the stream's abort has passed its step 4 (R49). -/
def Stream.pastBands (st : Stream) : Bool :=
  st.st == .aborting && (st.abortAt == some .marks || st.abortAt == some .stop || st.abortAt == some .abort)

/-- R19, R49: a stream that is UNCONFIGURED or READY, or whose abort has passed step 4, holds no slot. -/
def State.IdleLaw (s : State) : Prop :=
  ∀ i, (s.stream i).st = .unconfigured ∨ (s.stream i).st = .ready ∨ (s.stream i).pastBands = true →
    ∀ k b, s.slot k = some b → b.stream ≠ i

/-- R49: an ABORT completion is due only at step 7 of an abort. -/
def State.AbortLaw (s : State) : Prop :=
  ∀ i d, (s.stream i).dabort = some d → d.due = true →
    (s.stream i).st = .aborting ∧ (s.stream i).abortAt = some .abort

/-- The laws of the bands' numbering, all together (R9, R13, R19, R20, R49). -/
structure State.BandLaws (s : State) : Prop where
  live : s.LiveLaw
  unique : s.UniqueLaw
  sending : s.SendingLaw
  exact_ : s.ExactLaw
  idle : s.IdleLaw
  abort : s.AbortLaw

/-! ## Laws of the ring unit, stream control and the lanes -/

/-- The entry the raster unit or the admin unit holds has a source that is no lane's (R146). -/
def State.HeldLaw (s : State) : Prop :=
  (∀ e, s.raster.offer = some e → e.source.toNat < 8) ∧
  (∀ e i, s.admin = .posting e i ∨ s.admin = .awaiting e i → e.source.toNat < 8)

/-- R151: the queue holds at most 16 entries and at most one of each lane. -/
def State.QueueLaw (s : State) : Prop :=
  s.ring.queue.length ≤ Config.queueLimit ∧
  (∀ i : StreamId, (s.ring.queue.filter fun e => e.source == BitVec.ofNat 8 (8 + i.val)).length ≤ 1) ∧ s.HeldLaw

/-- The ring index a latch holds (R58). -/
def Latch.index : Latch → Option Nat
  | .empty => none
  | .fetching n => some n
  | .held n _ _ => some n
  | .faulted n => some n

/-- A ring as R139 has it: a legal size, and both positions below it. -/
def Ring.Legal (r : Ring) : Prop := ringSizeOk r.size = true ∧ r.head < r.size ∧ r.tail < r.size

/-- The completion ring as R139 has it. -/
def CompRing.Legal (c : CompRing) : Prop := ringSizeOk c.size = true ∧ c.write < c.size ∧ c.release < c.size

/-- R139: every ring has a legal size and positions below it. -/
def State.RingLaw (s : State) : Prop :=
  (∀ r, s.ring.admin = some r → r.Legal) ∧ (∀ c, s.ring.comp = some c → c.Legal) ∧
  ∀ i r, (s.stream i).ring = some r → r.Legal

/-- R58: a latch that is not EMPTY is of a RUNNING or DRAINING stream; its index is the ring head, and the ring's head differs
from its tail. -/
def State.LatchLaw (s : State) : Prop :=
  ∀ i, (s.stream i).latch ≠ .empty → (s.stream i).takesRecords = true ∧
    ∃ r, (s.stream i).ring = some r ∧ (s.stream i).latch.index = some r.head ∧ r.head ≠ r.tail

/-- R141, R143: a command that is taken and not yet carried out is the record at the admin head, which the ring counts as
submitted. -/
def State.CommandLaw (s : State) : Prop :=
  ∀ bs n met, s.admin = .fetched bs n met → ∃ r, s.ring.admin = some r ∧ n = r.head ∧ r.head ≠ r.tail

/-- R109: credit is between 0 and 15. -/
def State.CreditLaw (s : State) : Prop := ∀ i, (s.lane i).credit ≤ Config.creditLimit

/-- The quotas of all configured streams together. -/
def State.quotaSum (s : State) : Nat := ((List.finRange 4).map fun i => (s.stream i).cfg.elim 0 StreamCfg.quota).sum

/-- R34: the quotas of all configured streams never sum to more than 64. -/
def State.QuotaLaw (s : State) : Prop := s.quotaSum ≤ Config.poolPages

/-- R22, R34: the pages a configured stream holds never exceed its quota, and its OPEN slots never its window. -/
def State.HoldLaw (s : State) : Prop :=
  ∀ i c, (s.stream i).cfg = some c → s.pagesHeld i ≤ c.quota ∧ s.openCount i ≤ c.window

/-! ## Moves between states -/

/-- The transitions of R28's table, and staying. -/
def streamMove : StreamState → StreamState → Bool
  | _, .unconfigured => true
  | .unconfigured, .ready => true
  | .ready, .ready => true
  | .ready, .running => true
  | .running, .running => true
  | .running, .draining => true
  | .running, .halted => true
  | .running, .aborting => true
  | .draining, .draining => true
  | .draining, .halted => true
  | .draining, .ready => true
  | .draining, .aborting => true
  | .halted, .halted => true
  | .halted, .running => true
  | .halted, .draining => true
  | .halted, .aborting => true
  | .aborting, .aborting => true
  | .aborting, .ready => true
  | _, _ => false

/-- The transitions of R160's table, and staying. -/
def partMove : PartState → PartState → Bool
  | _, .detached => true
  | .detached, .attaching => true
  | .attaching, .attaching => true
  | .attaching, .attached => true
  | .attached, .attached => true
  | .attached, .detaching => true
  | .attached, .fatal => true
  | .detaching, .detaching => true
  | .fatal, .fatal => true
  | .fatal, .detaching => true
  | _, _ => false

/-! ## Words for the statements -/

/-- Stream `i` of `s` replaced. -/
def State.setStream (i : StreamId) (x : Stream) (s : State) : State := { s with streams := putAt s.streams i x }

/-- Lane `i` of `s` replaced. -/
def State.setLane (i : StreamId) (x : Lane) (s : State) : State := { s with lanes := putAt s.lanes i x }

/-- The admin unit of an ATTACHED part has taken the record `bs` of index `n` and not yet carried it out; `r` is the admin ring
once the head has moved past it, with the tail that was written last (R29, R141, R143, log 3). -/
def State.HasCommand (s : State) (bs : List Byte) (n : Nat) (r : Ring) : Prop :=
  s.port.part = .attached ∧ ∃ g met, s.admin = .fetched bs n met ∧ s.ring.admin = some g ∧
    r = { g with head := (g.head + 1) % g.size, tail := if met then g.head else g.tail }

/-- What a request or write that waited puts on the link when its turn comes; `n` is the next read request's number (R147, R168,
R170). -/
def State.puts (s : State) (n : Nat) : LinkAsk → List LinkOut
  | .read _ addr len => [.readRequest n addr len]
  | .entry =>
    match s.ring.queue, s.ring.comp with
    | e :: _, some c =>
      if s.port.part = .attached then [.write (c.base + BitVec.ofNat 64 (16 * c.write)) (entryBytes c.phase e)] else []
    | _, _ => []
  | .snapshot addr bytes => [.write addr bytes]
  | .message => if s.port.messages ∧ s.port.part ≠ .detaching then [.interrupt] else []

/-- What a waiting list with at most one entry puts on the link, in its order. -/
def State.putsAll (s : State) : Nat → List LinkAsk → List LinkOut
  | _, [] => []
  | n, a :: l => s.puts n a ++ s.putsAll (match a with | .read _ _ _ => n + 1 | _ => n) l

/-- The ring after the record at its head is consumed (R71, R141). -/
def Ring.consumed (r : Ring) : Ring := { r with head := (r.head + 1) % r.size }

/-- The completion entry of the admin record `bs` of index `n`; `r` is the admin ring after it is consumed (R31). -/
def commandEntry (bs : List Byte) (n : Nat) (r : Ring) (st : Status) (extra : BitVec 32) : Entry :=
  { tag := le32 bs 4, source := 0#8, kind := byteAt bs 0, status := st, empty := false
    index := BitVec.ofNat 16 n, head := BitVec.ofNat 16 r.head, extra := extra }

/-- The command is consumed, `r` being the admin ring after it, and no completion of it is offered (R29). -/
def State.deferred (r : Ring) (s : State) : State := { s with admin := .idle, ring := { s.ring with admin := some r } }

/-- The stream that the admin record `bs` names, if its number is one (R30). -/
def commandStream (bs : List Byte) : Option StreamId :=
  if h : (byteAt bs 1).toNat < 4 then some ⟨(byteAt bs 1).toNat, h⟩ else none

/-- The command `bs` of index `n` is consumed, `r` being the admin ring after it, and its completion is offered (R29, R150). -/
def State.answered (bs : List Byte) (n : Nat) (r : Ring) (st : Status) (extra : BitVec 32) (s : State) : State :=
  State.admitAsMade .admin { s.deferred r with admin := .posting (commandEntry bs n r st extra) (commandStream bs) }

/-- Which admin row takes a fetched record (R30; for an unknown action, log 4). -/
def rowTakes (bs : List Byte) : Instr :=
  if byteAt bs 0 = 0x10#8 then .configureStream
  else if byteAt bs 0 = 0x11#8 then .startStream
  else if byteAt bs 0 = 0x12#8 then .stopStream
  else if byteAt bs 0 = 0x13#8 then .abortStream
  else if byteAt bs 0 = 0x14#8 then .releaseStream
  else if byteAt bs 0 = 0x15#8 then (if byteAt bs 8 = 1#8 then .clearStreamSkipBand else .clearStreamResume)
  else if byteAt bs 0 = 0x16#8 then (if byteAt bs 8 = 1#8 then .clearLaneSkip else .clearLaneResend)
  else if byteAt bs 0 = 0x17#8 then .queryStream
  else .unknownCommand

/-- Whether a command code is taken for a stream and its lane (R33, R35, R36, R37, R43, R46, R51, R52). -/
def takenFor (code : Byte) (st : Stream) (l : Lane) : Bool :=
  match code.toNat with
  | 0x10 => st.st == .unconfigured || st.st == .ready
  | 0x11 => st.st == .ready
  | 0x12 => st.st == .ready || st.st == .running || (st.st == .halted && st.dstop.isNone)
  | 0x13 => st.st == .ready || st.st == .running || st.st == .draining || st.st == .halted
  | 0x14 => st.st == .ready
  | 0x15 => st.st == .halted
  | 0x16 => (st.st == .running || st.st == .draining || st.st == .halted) && (l.state == .halted || l.state == .lost)
  | _ => true

/-- Whether a command's reserved bytes are zero and its fields in range (R33, R43, R51, R52, 9.3). -/
def fieldsGood (bs : List Byte) : Bool :=
  zeroBytes bs 2 2 &&
  match (byteAt bs 0).toNat with
  | 0x10 => zeroBytes bs 25 1 && zeroBytes bs 33 1 && zeroBytes bs 36 28 && configInRange (configRing bs) (configOf bs)
  | 0x11 => zeroBytes bs 10 54
  | 0x15 => zeroBytes bs 9 55 && decide ((byteAt bs 8).toNat ≤ 1)
  | 0x16 => zeroBytes bs 9 55 && decide ((byteAt bs 8).toNat ≤ 1)
  | 0x17 => zeroBytes bs 16 48 && aligned64 (le64 bs 8)
  | _ => zeroBytes bs 8 56

/-- The admin unit holds a command of code `code` for stream `i` that passes the checks of R30. -/
structure State.Taken (s : State) (code : Byte) (i : StreamId) (bs : List Byte) (n : Nat) (r : Ring) : Prop where
  command : s.HasCommand bs n r
  kind : byteAt bs 0 = code
  stream : (byteAt bs 1).toNat = i.val
  state : takenFor code (s.stream i) (s.lane i) = true
  fields : fieldsGood bs = true

/-- The hand-over arbiter chooses stream `i`, whose latch holds the record `bs` of ring index `n` with verdict `v`; the stream
has configuration `c` and ring `r`. -/
structure State.Chosen (s : State) (i : StreamId) (n : Nat) (bs : List Byte) (v : Verdict) (c : StreamCfg) (r : Ring) :
    Prop where
  choice : s.handOverChoice = some i
  latch : (s.stream i).latch = .held n bs v
  cfg : (s.stream i).cfg = some c
  ring : (s.stream i).ring = some r

/-- A chosen record of kind `k` with a good verdict that does not name the skip band. -/
structure State.Good (s : State) (i : StreamId) (n : Nat) (k : RecKind) (bs : List Byte) (c : StreamCfg) (r : Ring) :
    Prop extends s.Chosen i n bs .good c r where
  kind : RecKind.ofCode (byteAt bs 0) = some k
  noSkip : s.skips i k bs = false

/-- The completion entry of the stream record `bs` of ring index `n`, consumed from the ring `r` of stream `i` (R73). -/
def handedEntry (i : StreamId) (n : Nat) (bs : List Byte) (r : Ring) (st : Status) (extra : BitVec 32) : Entry :=
  { tag := le32 bs 4, source := BitVec.ofNat 8 (i.val + 1), kind := byteAt bs 0, status := st, empty := false
    index := BitVec.ofNat 16 n, head := BitVec.ofNat 16 ((r.head + 1) % r.size), extra := extra }

/-- The chosen record of stream `i` is consumed: head past it, latch EMPTY, the next choice after `i` (R63, R71); `x` is the
stream otherwise. -/
def State.handed (i : StreamId) (r : Ring) (x : Stream) (s : State) : State :=
  { s.setStream i { x with latch := .empty, ring := some r.consumed } with
    intake := { s.intake with handNext := i + 1 } }

/-- The raster unit is HOLDING with an entry that is offered (R70). -/
def State.holding (i : StreamId) (e : Entry) (s : State) : State :=
  State.admitAsMade .raster { s with raster := .holding i e }

/-- The stream after a halt claim that names `info` (R41). -/
def Stream.haltedBy (info : HaltInfo) (st : Stream) : Stream :=
  { st with
    st := .halted, ret := some (if st.st = .draining then .draining else .running), halt := some info, latch := .empty }

/-- The chosen record of stream `i` fails: consumed, the stream HALTED with RECORD_ERROR, an entry held (R67, R69). -/
def State.failed (i : StreamId) (n : Nat) (bs : List Byte) (r : Ring) (st : Status) (band : Option Band) (s : State) : State :=
  let info : HaltInfo := { reason := .recordError, index := n, band := band }
  let t := s.handed i r ((s.stream i).haltedBy info)
  State.holding i (handedEntry i n bs r st (bandExtra band)) { t with intake := t.intake.drop i }

/-- The row of a record kind. -/
def kindRow : RecKind → Instr
  | .openBand => .openBand
  | .fillRect => .fillRect
  | .place => .place
  | .copyRect => .copyRect
  | .closeBand => .closeBand
  | .discardBand => .discardBand
  | .mark => .mark

/-- The op record R76 builds for the record `bs` of stream `i` at ring index `n`. -/
def handedOp (i : StreamId) (n : Nat) (bs : List Byte) (c : StreamCfg) (r : Ring) (kind : OpKind) (slot : SlotId)
    (area : Area) : Op :=
  { kind := kind, stream := i, index := n, tag := le32 bs 4, notify := (byteAt bs 1).getLsbD 0, entryKind := byteAt bs 0
    entryHead := (r.head + 1) % r.size, slot := slot, band := le16 bs 2, width := c.width, height := c.height
    depth := c.depth, area := area, rowsDone := 0, fault := false, readsOut := 0, rowData := [] }

/-- Lane `i` is in state `st`, and the frame of the begun exchange `o` is outstanding (R99). -/
structure State.Exchange (s : State) (i : StreamId) (st : LaneState) (o : Outstanding) : Prop where
  state : (s.lane i).state = st
  out : (s.lane i).out = some o
  begun : o.begun = true

/-- The lane with no frame outstanding; a transmission under way is sent to its end and starts no timer (R94, R102). -/
def Lane.quiet (l : Lane) : Lane :=
  { l with out := none, txWaiting := false, tx := l.tx.map fun t => { t with counts := false } }

/-- The lane with the new frame `f` of sequence number `seq`: transmitted at once, or, with a transmission under way, when that
one ends (R94, R99, R101). -/
def Lane.sending (b : Bands) (i : StreamId) (f : Frame) (seq : Seq) (l : Lane) : Lane :=
  let o : Outstanding := { frame := f, seq := seq, begun := l.tx.isNone, paused := false, timer := false }
  match l.tx with
  | none => { l with out := some o, tx := some { bytes := frameBytes b i l o, counts := true }, txWaiting := false }
  | some _ => { l with out := some o, txWaiting := true }

/-- The lane after it enters OFFLINE: latch and counters kept, a transmission under way sent to its end (R111, R121). -/
def Lane.offline (l : Lane) : Lane :=
  { Lane.initial with
    latch := l.latch, beforeStop := l.beforeStop, stale := l.stale, bad := l.bad, resent := l.resent
    tx := l.tx.map fun t => { t with counts := false } }

/-- The categories of the admission arbiter (R150). -/
def Producer.category : Producer → Nat
  | .lane _ => 1
  | .stream _ => 2
  | .raster => 3
  | .admin => 4

/-- The lane of a row of chapters 5 and 6. -/
def laneOf : Instr → Option StreamId
  | .syncSend i => some i
  | .bandStart i => some i
  | .frameSent i => some i
  | .accept i _ => some i
  | .wait i _ => some i
  | .refuse i _ _ => some i
  | .credit i _ => some i
  | .badFrame i _ => some i
  | .replyTimerExpiry i => some i
  | .waitTimerExpiry i => some i
  | .starveTimerExpiry i => some i
  | _ => none

end Sys2Proof.Machine
end

