-- ==== Sys2Proof/WellFormed.lean ====
section
/-!
DEFINITION. Which commands spell an event that can reach the part. `exec` is total on the others too.
-/

namespace Sys2Proof

/-- The queue ids that name a queue (R142). -/
def usedQueue (q : BitVec 8) : Bool := q.toNat ≤ 4 || q == 7#8

/-- The 32-bit window writes that are rows of their own: CONTROL, NOTIFY, EVENT_CAUSE, EVENT_MASK (R157). -/
def ownRow (offset : BitVec 12) (size : Nat) : Bool :=
  size == 4 && (offset == 0x004#12 || offset == 0x014#12 || offset == 0x018#12 || offset == 0x01C#12)

/-- The checks on a command's operands, each from the rule of its row. A window write may have any size: R157 speaks of "any other
size" and lists none (DESIGN CHOICE, log 24). -/
def Instr.wellFormed : Instr → Bool
  | .registerWrite offset size _ => !ownRow offset size
  | .configBusMasterEnable b m => b || m
  | .configBusMasterDisable b m => b || m
  | .readCompletion _ _ data good => !good || !data.isEmpty
  | .credit _ grant => grant != 0#8
  | .badFrame _ bytes => (Machine.parseHead bytes).isNone
  | .notifyUnusedQueue q _ => !usedQueue q
  | .powerOn | .fundamentalReset | .functionReset _ | .attach | .attachCancel | .detach | .detachEnd
  | .notifyAdminTail _ | .notifyStreamTail _ _ | .notifyRelease _ | .eventCauseWrite _ | .eventMaskWrite _
  | .linkLoss | .readLimitExpiry _ | .adminFetch | .unknownCommand | .configureStream | .startStream
  | .stopStream | .abortStream | .releaseStream | .clearStreamResume | .clearStreamSkipBand
  | .clearLaneResend | .clearLaneSkip | .queryStream | .recordFetch | .ringFault | .unknownRecordKind
  | .openBand | .fillRect | .place | .copyRect | .closeBand | .discardBand | .mark | .rowWrite
  | .entryAdmission | .completionEntryWrite | .coalesceTimerExpiry | .drainAutoClose _ | .drainEnd _
  | .abortStep _ | .syncSend _ | .bandStart _ | .frameSent _ | .accept _ _ | .wait _ _ | .refuse _ _ _
  | .replyTimerExpiry _ | .waitTimerExpiry _ | .starveTimerExpiry _ | .linkUp => true

end Sys2Proof
end

