-- ==== Sys2Proof/Certificates/Slice0/Obligations.lean ====
section
/-!
DEFINITION. The statements for the provers, from the numbered rules of spec/.
-/

open Sys2Proof Sys2Proof.Machine

/-! ## The queue of commands and the laws every step keeps -/

/-- One step takes the command at the front of the queue and runs it on the rest; an empty queue idles (log 1). -/
def Obligations.StepTakesTheFrontCommand : Prop :=
  ∀ (s : State) (c : Instr) (rest : List Instr),
    (s.pending = c :: rest → step s = exec c { s with pending := rest }) ∧ (s.pending = [] → step s = .next s)

/-- R4, R5, R6, R7: every step keeps each page in exactly one place. -/
def Obligations.StepsKeepThePagePool : Prop :=
  ∀ s t : State, s.PoolLaw → step s = .next t → t.PoolLaw

/-- Every step keeps band memory in its canonical form, inside the 64 pages of R2. The form and the zero of an unlisted byte,
which R3 writes at power-on, are the model's choice (log 16). -/
def Obligations.StepsKeepBandMemoryCanonical : Prop :=
  ∀ s t : State, s.MemoryLaw → step s = .next t → t.MemoryLaw

/-- R151: every step keeps the queue at 16 entries or fewer, with at most one of each lane. -/
def Obligations.StepsKeepTheQueueLaw : Prop :=
  ∀ s t : State, s.QueueLaw → step s = .next t → t.QueueLaw

/-- R9, R13, R19, R20, R21: every step keeps the laws of the bands' numbering. -/
def Obligations.StepsKeepTheBandLaws : Prop :=
  ∀ s t : State, s.BandLaws → step s = .next t → t.BandLaws

/-- R139, R141, R143, R58, R34, R22, R109: every step keeps every ring's size legal and its positions below the size, the
quotas' sum at 64 or less, every lane's credit at 15 or less, and, where the laws of the bands' numbering hold, every
configured stream's pages held within its quota and its OPEN slots within its window. A command taken and not yet carried out
is the record at the admin head, counted as submitted; every step keeps that law, and where it holds a step of an ATTACHED
part moves the admin head, if at all, past one record, at the row that carries its command out (log 3), and only while head
and tail differ. A step moves a stream's head past one record so too, where every latch that is not EMPTY stands at its ring's
head with head and tail different, or sets it to the tail at an ABORT_STREAM or at an abort's end, or sets both positions to 0
at a CONFIGURE_STREAM; every step keeps that law of the latches. What is said of streams rests on AbortLaw, by which an ABORT
completion is due only at an abort's step 7 (R49). -/
def Obligations.StepsKeepRingsQuotasAndCredit : Prop :=
  ∀ s t : State, step s = .next t → (s.RingLaw → t.RingLaw) ∧ (s.QuotaLaw → t.QuotaLaw) ∧ (s.CreditLaw → t.CreditLaw) ∧
    (s.BandLaws → s.HoldLaw → t.HoldLaw) ∧
    (s.AbortLaw → s.LatchLaw → t.LatchLaw) ∧
    (s.CommandLaw → t.CommandLaw) ∧
    (∀ r r', s.CommandLaw → s.port.part = .attached → s.ring.admin = some r → t.ring.admin = some r' →
      r'.head = r.head ∨ (r.head ≠ r.tail ∧ ∃ bs met, s.admin = .fetched bs r.head met ∧
        (∃ rest, s.pending = rowTakes bs :: rest) ∧
        r' = { r with head := (r.head + 1) % r.size, tail := if met then r.head else r.tail })) ∧
    ∀ i r r', s.AbortLaw → s.LatchLaw → (s.stream i).ring = some r → (t.stream i).ring = some r' →
      r'.head = r.head ∨ (r.head ≠ r.tail ∧ r' = { r with head := (r.head + 1) % r.size }) ∨
        (((∃ rest, s.pending = .abortStream :: rest) ∨ ((s.stream i).st = .aborting ∧ (t.stream i).st = .ready)) ∧
          r' = { r with head := r.tail }) ∨
        ((∃ rest, s.pending = .configureStream :: rest) ∧ r'.head = 0 ∧ r'.tail = 0)

/-- Every law holds right after power-on. -/
def Obligations.LawsHoldAtReset : Prop :=
  State.reset.PoolLaw ∧ State.reset.MemoryLaw ∧ State.reset.QueueLaw ∧ State.reset.BandLaws ∧ State.reset.RingLaw ∧
    State.reset.QuotaLaw ∧ State.reset.CreditLaw ∧ State.reset.HoldLaw ∧ State.reset.LatchLaw ∧ State.reset.CommandLaw

/-- R28: a step moves a stream only along the table's transitions, one at most; but a CLEAR_STREAM that returns a stream to
DRAINING finds its drain end in the same step (log 21), and so takes it from HALTED through DRAINING to READY. AbortLaw says
that an ABORT completion is due only at step 7 of an abort. -/
def Obligations.StreamsMoveByTheTable : Prop :=
  ∀ (s t : State) (i : StreamId), s.AbortLaw → step s = .next t →
    streamMove (s.stream i).st (t.stream i).st = true ∨
    ((∃ rest, s.pending = .clearStreamResume :: rest ∨ s.pending = .clearStreamSkipBand :: rest) ∧
      (s.stream i).st = .halted ∧ (s.stream i).ret = some .draining ∧ (t.stream i).st = .ready ∧
      streamMove .halted .draining = true ∧ streamMove .draining .ready = true)

/-- R160: a step moves the part only along the table's transitions. -/
def Obligations.PartMovesByTheTable : Prop :=
  ∀ s t : State, step s = .next t → partMove s.port.part t.port.part = true

/-- R94: a lane's own step, a frame it receives or a timer of it changes no other lane and no other stream, and none
of the system port, the admin unit, intake and the raster unit. -/
def Obligations.LanesAreIsolated : Prop :=
  ∀ (c : Instr) (i j : StreamId) (s t : State), laneOf c = some i → j ≠ i → exec c s = .next t →
    t.lane j = s.lane j ∧ t.stream j = s.stream j ∧ t.port = s.port ∧ t.admin = s.admin ∧ t.intake = s.intake ∧
      t.raster = s.raster ∧ t.bands.mem = s.bands.mem ∧ t.pending = s.pending ∧
      ∀ k b, s.slot k = some b → b.stream = j → t.slot k = some b

/-- R65: the hand-over of one stream's record changes no other stream's context, ring, latch, numbering or marks, none of
its slots, and no lane. -/
def Obligations.HandOversAreIsolated : Prop :=
  ∀ (c : Instr) (i j : StreamId) (s t : State),
    c = .ringFault ∨ c = .unknownRecordKind ∨ (∃ k, c = kindRow k) → s.handOverChoice = some i → j ≠ i →
    exec c s = .next t →
    t.stream j = s.stream j ∧ t.lanes = s.lanes ∧ t.admin = s.admin ∧ t.bands.mem = s.bands.mem ∧
      t.pending = s.pending ∧ ∀ k b, s.slot k = some b → b.stream = j → t.slot k = some b

/-- R63: the hand-over arbiter chooses, in an ATTACHED part with the raster unit FREE, the first stream in round-robin order
that is RUNNING or DRAINING with an eligible latch. As R59 says, the fetch arbiter chooses in the same way, with no read
outstanding, among the RUNNING and DRAINING streams with an EMPTY latch and a ring whose head differs from its tail. As R64
says, a latch is eligible when it is FAULTED, or HELD, but for a good OPEN_BAND without quota for P more pages or without a
FREE slot and a good MARK of scope EMITTED with 8 marks in the list. The pages held are the sum R23 defines. -/
def Obligations.ArbitersChooseRoundRobin : Prop :=
  ∀ (s : State) (n : Fin 4),
    (s.handOverChoice = some (s.intake.handNext + n) ↔
      s.port.part = .attached ∧ s.raster = .free ∧
      (((s.stream (s.intake.handNext + n)).st = .running ∨ (s.stream (s.intake.handNext + n)).st = .draining) ∧
        s.eligible (s.intake.handNext + n) = true) ∧
      ∀ m : Fin 4, m < n →
        ¬(((s.stream (s.intake.handNext + m)).st = .running ∨ (s.stream (s.intake.handNext + m)).st = .draining) ∧
          s.eligible (s.intake.handNext + m) = true)) ∧
    (s.fetchChoice = some (s.intake.fetchNext + n) ↔
      s.port.part = .attached ∧ s.intake.fetchRead = none ∧ (s.stream (s.intake.fetchNext + n)).fetchable = true ∧
      ∀ m : Fin 4, m < n → (s.stream (s.intake.fetchNext + m)).fetchable = false) ∧
    ∀ i : StreamId,
      ((s.stream i).fetchable = true ↔
        (s.stream i).latch = .empty ∧ ((s.stream i).st = .running ∨ (s.stream i).st = .draining) ∧
          ∃ r, (s.stream i).ring = some r ∧ r.head ≠ r.tail) ∧
      (s.eligible i = true ↔ (∃ n, (s.stream i).latch = .faulted n) ∨
        ∃ n bs v, (s.stream i).latch = .held n bs v ∧ (v = .good →
          (byteAt bs 0 = 1#8 → (∃ k, s.slot k = none) ∧ ∃ c, (s.stream i).cfg = some c ∧
            s.pagesHeld i + (c.width * c.depth / 8 * c.height + 32767) / 32768 ≤ c.quota) ∧
          (byteAt bs 0 = 7#8 → byteAt bs 8 = 1#8 → (s.stream i).marks.length < 8))) ∧
      s.pagesHeld i =
        ((((List.finRange 64).filterMap s.slot).filter fun b => b.stream == i).map fun b => b.pages.length).sum

/-! ## Checks, counts and dots -/

/-- R95, R97, R98, R177: the CRC-16 register starts at 0 and takes each byte most significant bit first, with polynomial
0x1021 and no complement; the band CRC-32 starts at all ones, takes each byte least significant bit first, with the reflected
polynomial 0xEDB88320, and is complemented. Every frame the part sends is its type, its seq and the fields of its table, most
significant byte first, then its CRC-16, so that the register over the whole frame ends at 0; bytes over which it does not end
at 0 are no good frame. A frame of the head with a matching check is read as its type, seq, reason and grant, whatever its
reserved bits; a CREDIT of 0 and a REFUSE reason above 15 are bad, and so is every frame of another type or length, whatever
its check. -/
def Obligations.FramesCarryTheirCheck : Prop :=
  let be2 (n : Nat) : List Byte := [BitVec.ofNat 8 (n / 256), BitVec.ofNat 8 n]
  let be4 (n : Nat) : List Byte := be2 (n / 65536) ++ be2 n
  let checked (body : List Byte) : List Byte := body ++ be2 (crc16 body).toNat
  (crc16 [] = 0#16 ∧ ∀ (bs : List Byte) (b : Byte), crc16 (bs ++ [b]) =
    Nat.repeat (fun r => if r.getLsbD 15 then (r <<< 1) ^^^ 0x1021#16 else r <<< 1) 8 (crc16 bs ^^^ (b ++ 0#8))) ∧
  (crc32 [] = 0#32 ∧ ∀ (bs : List Byte) (b : Byte), ~~~ (crc32 (bs ++ [b])) =
    Nat.repeat (fun r => if r.getLsbD 0 then (r >>> 1) ^^^ 0xEDB88320#32 else r >>> 1) 8 (~~~ (crc32 bs) ^^^ b.setWidth 32)) ∧
  (∀ (b : Bands) (i : StreamId) (l : Lane) (o : Outstanding),
    let q : Byte := o.seq.setWidth 8
    crc16 (frameBytes b i l o) = 0#16 ∧
    (∀ n, o.frame = .sync n → n = 256 ∨ n = 512 ∨ n = 1024 → frameBytes b i l o =
      checked [0x01#8, q, BitVec.ofNat 8 i.val, if n = 256 then 0#8 else if n = 512 then 1#8 else 2#8]) ∧
    (∀ band lines lineBytes depth blank damaged autoClosed bytes,
      o.frame = .header band lines lineBytes depth blank damaged autoClosed bytes → frameBytes b i l o =
        checked ([0x02#8, q] ++ be2 band.toNat ++ be2 lines ++ be2 lineBytes ++ [BitVec.ofNat 8 depth,
          (if blank then 1#8 else 0#8) ||| (if damaged then 2#8 else 0#8) ||| (if autoClosed then 4#8 else 0#8)] ++
          be4 bytes)) ∧
    (∀ k n g p slot, o.frame = .chunk k n → l.progress = some g → l.params = some p → b.slots.get g.slot = some slot →
      frameBytes b i l o = checked ([0x03#8, q] ++ be2 k ++ be2 n ++
        (List.range n).map fun j => bandByte b.mem slot.pages (k * p.chunkSize + j))) ∧
    (∀ n crc, o.frame = .trailer n crc → frameBytes b i l o = checked ([0x04#8, q] ++ be2 n ++ be4 crc.toNat)) ∧
    ∀ band, o.frame = .cancel band → frameBytes b i l o = checked ([0x05#8, q] ++ be2 band.toNat)) ∧
  (∀ bs, crc16 bs ≠ 0#16 → parseHead bs = none) ∧
  (∀ bs, parseHead bs ≠ none → ∃ body, bs = checked body ∧
    ((∃ q, body = [0x81#8, q]) ∨ (∃ q, body = [0x82#8, q]) ∨ (∃ q x : Byte, body = [0x83#8, q, x] ∧ x.toNat ≤ 15) ∨
      ∃ x : Byte, body = [0x84#8, x] ∧ x ≠ 0#8)) ∧
  ∀ q x : Byte,
    parseHead (checked [0x81#8, q]) = some (.accept (q.setWidth 2)) ∧
    parseHead (checked [0x82#8, q]) = some (.wait (q.setWidth 2)) ∧
    parseHead (checked [0x83#8, q, x]) =
      (if x.toNat ≤ 15 then some (.refuse (q.setWidth 2) (x.setWidth 4)) else none) ∧
    parseHead (checked [0x84#8, x]) = if x = 0#8 then none else some (.credit x)

/-- R140: the counts of a ring. A ring whose positions lie below its size counts (tail − head) mod size records; it is empty
exactly when head equals tail and holds at most size − 1; a tail written size records ahead of the head is the head; a notify
write of a tail below the size is taken at its new count, whatever the tail was before. The one admin tail that the ring takes
later, as the head moves, is that equal to the index of a command taken and not yet carried out: the model's log 3, which
AcceptedTailsAreStored states. The completion ring counts (write − release) mod size, and is full, so that an entry finds no
room, exactly at size − 1. -/
def Obligations.RingsCountModuloTheirSize : Prop :=
  (∀ r : Ring, r.head < r.size → r.tail < r.size →
    (r.count : Int) = ((r.tail : Int) - r.head) % r.size ∧ (r.isEmpty = true ↔ r.head = r.tail) ∧
    (r.isEmpty = true ↔ r.count = 0) ∧ r.count ≤ r.size - 1 ∧ (r.head + r.size) % r.size = r.head ∧
    (∀ n, n < r.size → (({ r with tail := n } : Ring).count : Int) = ((n : Int) - r.head) % r.size) ∧
    ∀ (s : State) (i : StreamId) (index : BitVec 16), s.port.part = .attached → index.toNat < r.size →
      (s.ring.admin = some r → (∀ bs n met, s.admin = .fetched bs n met → index.toNat ≠ r.head) →
        ∃ t r', exec (.notifyAdminTail index) s = .next t ∧ t.ring.admin = some r' ∧
        r'.head = r.head ∧ (r'.count : Int) = ((index.toNat : Int) - r.head) % r.size) ∧
      ((s.stream i).st ≠ .unconfigured → (s.stream i).ring = some r → ∃ t r',
        exec (.notifyStreamTail i index) s = .next t ∧ (t.stream i).ring = some r' ∧
        r'.head = r.head ∧ (r'.count : Int) = ((index.toNat : Int) - r.head) % r.size)) ∧
  ∀ c : CompRing, c.write < c.size → c.release < c.size →
    (c.room = false ↔ ((c.write : Int) - c.release) % c.size = c.size - 1) ∧
    (c.room = false ↔ (c.write + 1) % c.size = c.release)

/-- R77, and R78 and R2 for one line: a row write gives every dot of the op's area in its line the combine of its old value
and the source value, and leaves every other dot of the band as it was; it changes no byte of band memory outside the bytes of
that line that the area touches, and no slot and no page list. REPLACE gives the source, OR the bitwise or, CLEAR the
destination without the source's bits, XOR the exclusive or; an initial fill combines with REPLACE, another op with its record's
mode. As R79, R80 and R81 to R84 say, the source value is the value of a fill, and for dot u of a PLACE dot u − x of the source
row's bytes, packed from the most significant end, of which the unit holds those from the first visible one on; at source depth 1
on depth 2 a set bit is the ink value, a clear one 0. -/
def Obligations.RowWritesCombineOneLine : Prop :=
  (∀ (op : Op) (b : Bands) (u v : Nat),
    (∀ value, op.kind = .initialFill value → op.mode = .replace ∧ op.source b u v = value) ∧
    (∀ box value mode, op.kind = .fillRect box value mode → op.mode = mode ∧ op.source b u v = value) ∧
    (∀ src box sx sy mode, op.kind = .copyRect src box sx sy mode → op.mode = mode) ∧
    ∀ box addr pitch ds ink mode, op.kind = .place box addr pitch ds ink mode →
      let col : Nat := ((u : Int) - box.x).toNat
      let first : Nat := ((op.area.c0 : Int) - box.x).toNat * ds / 8
      let held (k : Nat) : Byte := byteAt op.rowData (k - first)
      op.mode = mode ∧
      (ds = 1 → op.depth = 1 → op.source b u v = if (held (col / 8)).getLsbD (7 - col % 8) then 1#2 else 0#2) ∧
      (ds = 1 → op.depth = 2 → op.source b u v = if (held (col / 8)).getLsbD (7 - col % 8) then ink else 0#2) ∧
      (ds = 2 → op.depth = 2 → op.source b u v = (held (col / 4)).extractLsb' (6 - 2 * (col % 4)) 2)) ∧
  ∀ (op : Op) (b : Bands) (slot : BandSlot),
    Memory.wf b.mem → b.slots.get op.slot = some slot → slot.pages.Nodup → (op.depth = 1 ∨ op.depth = 2) → op.width % 32 = 0 →
    op.height * op.lineBytes ≤ slot.pages.length * Config.pageBytes →
    op.area.c1 ≤ op.width → op.area.c0 < op.area.c1 → op.line < op.height →
    (∀ x, (op.source b x op.line).toNat < 2 ^ op.depth) →
    (∀ x y, x < op.width → y < op.height →
      bandDot (op.writeRow b).mem slot.pages op.lineBytes op.depth x y =
        if y = op.line ∧ op.area.c0 ≤ x ∧ x < op.area.c1 then
          combine op.mode (bandDot b.mem slot.pages op.lineBytes op.depth x y) (op.source b x y)
        else bandDot b.mem slot.pages op.lineBytes op.depth x y) ∧
    (∀ a, (∀ j, op.area.c0 / dotsPerByte op.depth ≤ j → j ≤ (op.area.c1 - 1) / dotsPerByte op.depth →
        bandAddr slot.pages (op.line * op.lineBytes + j) ≠ some a) →
      Memory.read (op.writeRow b).mem a = Memory.read b.mem a) ∧
    (op.writeRow b).slots = b.slots ∧ (op.writeRow b).free = b.free ∧
    ∀ dst src : BitVec 2, combine .replace dst src = src ∧ combine .or dst src = dst ||| src ∧
      combine .clear dst src = dst &&& ~~~src ∧ combine .xor dst src = dst ^^^ src

/-! ## Resets, attach, detach, the register window -/

/-- R3, R160, R166, R167: a function reset, whatever its ATTACH bit, puts every block at its values after reset, keeps band
memory and the configuration space, abandons every read, and sends nothing; a fundamental reset also disables bus mastering
and messages; power-on gives the state after reset, with band memory zero. The link's state, the next request's name and what has
left the part stay (logs 6, 7, 8). -/
def Obligations.ResetsPutEveryBlockAtItsResetValues : Prop :=
  ∀ (s : State) (attach : Bool),
    let r : State :=
      { port := { Port.initial with
          busMaster := s.port.busMaster, messages := s.port.messages, linkUp := s.port.linkUp
          nextId := s.port.nextId, sent := s.port.sent }
        ring := RingUnit.initial
        admin := .idle
        streams := Vector.replicate 4 Stream.initial
        intake := Intake.initial
        raster := .free
        bands := { mem := s.bands.mem, free := List.finRange 64, slots := Vector.replicate 64 none }
        lanes := Vector.replicate 4 Lane.initial
        pending := s.pending }
    exec (.functionReset attach) s = .next r ∧
    exec .fundamentalReset s = .next { r with port := { r.port with busMaster := false, messages := false } } ∧
    ∃ t, exec .powerOn s = .next t ∧ t = { State.reset with pending := s.pending } ∧
      ∀ a, Memory.read t.bands.mem a = 0#8

/-- R158, R161, R162: ATTACH starts a read of the 128 bytes at the context address, under the limit 25,500 us, if that address
is a multiple of 64; otherwise the attach fails at once with CONTEXT_ALIGN. The read waits while bus mastering is disabled or the
link is down (log 8). Outside DETACHED it has no effect. -/
def Obligations.AttachReadsTheContextBlock : Prop :=
  ∀ s : State,
    let addr : BitVec 64 := s.port.contextHi ++ s.port.contextLo
    let p : Port := { s.port with attachCode := .none, fatalCode := .none, cancelled := false }
    (s.port.part = .detached → addr.toNat % 64 = 0 → s.port.busMaster = true → s.port.linkUp = true →
      exec .attach s = .next { s with port := {
        p with
        part := .attaching
        outstanding := s.port.outstanding ++ [{ id := s.port.nextId, who := .attach, addr := addr, len := 128, limit := 255,
                                                got := List.replicate 128 none, lost := false }]
        nextId := s.port.nextId + 1
        sent := s.port.sent ++ [.readRequest s.port.nextId addr 128] } }) ∧
    (s.port.part = .detached → addr.toNat % 64 = 0 → s.port.busMaster = false ∨ s.port.linkUp = false →
      exec .attach s = .next { s with port := { p with
        part := .attaching, waiting := s.port.waiting ++ [.read .attach addr 128] } }) ∧
    (s.port.part = .detached → addr.toNat % 64 ≠ 0 →
      exec .attach s = .next (State.raise .ofAttach { s with port := { p with attachCode := .contextAlign } })) ∧
    (s.port.part ≠ .detached → exec .attach s = .next s)

/-- R158, R163: ATTACH_CANCEL in ATTACHING marks the attach cancelled while its read is outstanding; a read that still waits is
discarded unissued, and the part is DETACHED with CANCELLED; a second cancel has no effect. -/
def Obligations.AttachCancelEndsTheAttach : Prop :=
  ∀ s : State, s.port.part = .attaching →
    (s.port.cancelled = false → s.port.waiting.any LinkAsk.isContext = false →
      exec .attachCancel s = .next { s with port := { s.port with cancelled := true } }) ∧
    (s.port.cancelled = false → s.port.waiting.any LinkAsk.isContext = true →
      exec .attachCancel s = .next (State.raise .ofAttach { s with port := { s.port with
        part := .detached, cancelled := false, attachCode := .cancelled
        waiting := s.port.waiting.filter fun a => !a.isContext } })) ∧
    (s.port.cancelled = true → exec .attachCancel s = .next s)

/-- R26, R32, R93, R138, R152, R164: DETACH in ATTACHED or FATAL makes the part DETACHING and silences every block: nothing
waits for the link, the queue is empty, no offer stands, every latch, mark list and deferred completion is gone, every slot and
byte of band memory is kept; a SENDING or CANCELLING lane of a configured stream takes a stop order, another goes OFFLINE. No
stream then takes records (log 13), and the fetch arbiter has no read (log 26). -/
def Obligations.DetachSilencesThePart : Prop :=
  ∀ s : State, s.port.part = .attached ∨ s.port.part = .fatal → ∃ t, exec .detach s = .next t ∧
    t.port = { s.port with part := .detaching, waiting := [] } ∧ t.ring.queue = [] ∧ t.offers = [] ∧
    t.bands = s.bands ∧ t.pending = s.pending ∧ t.intake.fetchRead = none ∧
    (∀ c, t.ring.coalesce = some c → c.counter = 0 ∧ c.timer = false) ∧
    (∀ i, (t.stream i).latch = .empty ∧ (t.stream i).marks = [] ∧ (t.stream i).dstop = none ∧ (t.stream i).dabort = none ∧
      (t.stream i).takesRecords = false) ∧
    ∀ i, (s.stream i).st ≠ .unconfigured →
      (((s.lane i).state = .sending ∨ (s.lane i).state = .cancelling) →
        t.lane i = { s.lane i with latch := none, beforeStop := false, stopPending := true }) ∧
      ((s.lane i).state ≠ .sending → (s.lane i).state ≠ .cancelling → (t.lane i).state = .offline)

/-- R165: DETACH_END takes the part to DETACHED, every block at its initial values, once every lane is OFFLINE and no host read
is outstanding; the window registers, the causes, the codes and band memory are kept. Until then nothing changes (log 2). -/
def Obligations.DetachEndsWithLanesOfflineAndNoRead : Prop :=
  ∀ s : State,
    (s.port.part = .detaching → (∀ i, (s.lane i).state = .offline) → s.port.outstanding = [] →
      exec .detachEnd s = .next
        { port := { s.port with part := .detached, readLimit := none }
          ring := RingUnit.initial
          admin := .idle
          streams := Vector.replicate 4 Stream.initial
          intake := Intake.initial
          raster := .free
          bands := { mem := s.bands.mem, free := List.finRange 64, slots := Vector.replicate 64 none }
          lanes := s.lanes.map fun l => { Lane.initial with tx := l.tx.map fun t => { t with counts := false } }
          pending := s.pending }) ∧
    ((s.port.part ≠ .detaching ∨ (∃ i, (s.lane i).state ≠ .offline) ∨ s.port.outstanding ≠ []) →
      exec .detachEnd s = .next s)

/-- R143, R144, R62: an accepted notify write stores the tail. A stream tail equal to the head withdraws the record at the
head: a latch that is not EMPTY becomes EMPTY and its read in flight is dropped. The admin unit looks at the admin tail when
its fetch returns; a record that has returned is a command taken and stays: a tail equal to its own index is kept in the admin
unit until the command is carried out, and is then the ring's tail with the head past the command (log 3). -/
def Obligations.AcceptedTailsAreStored : Prop :=
  ∀ (s : State) (i : StreamId) (index : BitVec 16) (r : Ring), s.port.part = .attached → index.toNat < r.size →
    (s.ring.admin = some r →
      let stored : State := { s with ring := { s.ring with admin := some { r with tail := index.toNat } } }
      ((∀ bs n met, s.admin ≠ .fetched bs n met) → exec (.notifyAdminTail index) s = .next stored) ∧
      ∀ bs n met, s.admin = .fetched bs n met →
        (index.toNat ≠ r.head → exec (.notifyAdminTail index) s = .next { stored with admin := .fetched bs n false }) ∧
        (index.toNat = r.head →
          let kept : State := { s with admin := .fetched bs n true }
          exec (.notifyAdminTail index) s = .next kept ∧ ∃ t, exec (rowTakes bs) kept = .next t ∧
            t.ring.admin = some { r with head := (r.head + 1) % r.size, tail := index.toNat })) ∧
    ((s.stream i).st ≠ .unconfigured → (s.stream i).ring = some r →
      ((s.stream i).latch = .empty ∨ index.toNat ≠ r.head →
        exec (.notifyStreamTail i index) s =
          .next (s.setStream i { s.stream i with ring := some { r with tail := index.toNat } })) ∧
      ((s.stream i).latch ≠ .empty → index.toNat = r.head →
        exec (.notifyStreamTail i index) s =
          .next { s.setStream i { s.stream i with ring := some { r with tail := index.toNat }, latch := .empty } with
                  intake := s.intake.drop i }))

/-- R142: a notify write is rejected, changing nothing but NOTIFY_ERROR, in a part that is not ATTACHED; for an unused queue id
in any part state; for a stream that is UNCONFIGURED; and for an index that is not below the ring's size. -/
def Obligations.RejectedNotifyWritesSetNotifyError : Prop :=
  ∀ (s : State) (i : StreamId) (q : BitVec 8) (index : BitVec 16),
    (usedQueue q = false → exec (.notifyUnusedQueue q index) s = .next (s.raise .ofNotifyError)) ∧
    (s.port.part ≠ .attached →
      exec (.notifyAdminTail index) s = .next (s.raise .ofNotifyError) ∧
      exec (.notifyStreamTail i index) s = .next (s.raise .ofNotifyError) ∧
      exec (.notifyRelease index) s = .next (s.raise .ofNotifyError)) ∧
    ((s.stream i).st = .unconfigured → exec (.notifyStreamTail i index) s = .next (s.raise .ofNotifyError)) ∧
    (∀ r, (s.stream i).ring = some r → r.size ≤ index.toNat →
      exec (.notifyStreamTail i index) s = .next (s.raise .ofNotifyError)) ∧
    (∀ r, s.ring.admin = some r → r.size ≤ index.toNat →
      exec (.notifyAdminTail index) s = .next (s.raise .ofNotifyError))

/-- R145: a release is valid when (index − release) mod size is no greater than (write − release) mod size; it then becomes the
release position and leaves (write − index) mod size entries unreleased; any other index is rejected with NOTIFY_ERROR and the
position stays. A valid release stays valid when an entry is written first; a release that frees something, taken first, gives
the write its room, and an entry that waits in the queue is then written. -/
def Obligations.ReleasesReachNoFurtherThanTheWrites : Prop :=
  ∀ (s : State) (index : BitVec 16) (c : CompRing),
    s.port.part = .attached → s.ring.comp = some c → c.write < c.size → c.release < c.size →
    let n : Nat := index.toNat
    let held : Int := ((c.write : Int) - c.release) % c.size
    let freed : Int := ((n : Int) - c.release) % c.size
    let next : Nat := (c.write + 1) % c.size
    (n < c.size → freed ≤ held →
      exec (.notifyRelease index) s = .next { s with ring := { s.ring with comp := some { c with release := n } } } ∧
      ((c.write : Int) - n) % c.size = held - freed ∧
      (c.room = true → freed ≤ ((next : Int) - c.release) % c.size) ∧
      (n ≠ c.release → ({ c with release := n } : CompRing).room = true ∧
        ∀ e q, s.ring.queue = e :: q → .entry ∉ s.port.waiting → s.port.busMaster = true → s.port.linkUp = true →
          ∃ u, exec .completionEntryWrite { s with ring := { s.ring with comp := some { c with release := n } } } = .next u ∧
            u.ring.queue = q)) ∧
    ((c.size ≤ n ∨ held < freed) → exec (.notifyRelease index) s = .next (s.raise .ofNotifyError))

/-- R155, R156, R170: writing EVENT_CAUSE clears the causes written with 1 and sends nothing; setting causes, and writing
EVENT_MASK, ask for one interrupt message exactly when the set of causes that are set and enabled goes from empty to non-empty.
The message is sent at once; with bus mastering disabled it waits; in DETACHING, with messages disabled, or with the link down,
it is never sent. -/
def Obligations.CausesAndTheirMessage : Prop :=
  ∀ (s : State) (value : BitVec 32) (c : Causes),
    let lives : Bool := s.port.messages && s.port.linkUp && s.port.part != .detaching
    let asks (p : Port) (news : Bool) : Port :=
      if news && lives && s.port.busMaster then { p with sent := p.sent ++ [.interrupt] }
      else if news && lives then { p with waiting := p.waiting ++ [.message] }
      else p
    let on (x y : Causes) : Bool := (x.completion && y.completion) || (x.attach && y.attach) || (x.fatal && y.fatal) ||
      (x.notifyError && y.notifyError)
    (let cause : Causes :=
      { completion := s.port.cause.completion && !value.getLsbD 0, attach := s.port.cause.attach && !value.getLsbD 1
        fatal := s.port.cause.fatal && !value.getLsbD 2, notifyError := s.port.cause.notifyError && !value.getLsbD 3 }
     exec (.eventCauseWrite value) s = .next { s with port := { s.port with cause := cause } }) ∧
    (let mask : Causes :=
      { completion := value.getLsbD 0, attach := value.getLsbD 1, fatal := value.getLsbD 2, notifyError := value.getLsbD 3 }
     let p : Port := asks { s.port with mask := mask } (!on s.port.cause s.port.mask && on s.port.cause mask)
     exec (.eventMaskWrite value) s = .next { s with port := p }) ∧
    (let cause : Causes :=
      { completion := s.port.cause.completion || c.completion, attach := s.port.cause.attach || c.attach
        fatal := s.port.cause.fatal || c.fatal, notifyError := s.port.cause.notifyError || c.notifyError }
     let p : Port := asks { s.port with cause := cause } (!on s.port.cause s.port.mask && on cause s.port.mask)
     s.raise c = { s with port := p })

/-- R157: a 32-bit write of CONTEXT_LO or CONTEXT_HI stores the value; of CONTROL, NOTIFY, EVENT_CAUSE or EVENT_MASK it does
what that register's own row does; any other write of the window is ignored. A read of IDENT gives 0x0F440101, one of
CONTEXT_LO or CONTEXT_HI the stored value, one of NOTIFY 0, one of CONTROL the ATTACH bit alone (1 in ATTACHED, FATAL and an
ATTACHING that is not cancelled), one of STATUS the part state in bits 2 to 0, the attach error code in bits 11 to 8 and the
fatal code in bits 19 to 16, one of EVENT_CAUSE or EVENT_MASK the four causes in bits 0 to 3; the other bits are 0, and a read
of another size or offset gives 0. Reads are the function readRegister (log 10). -/
def Obligations.RegisterAccessesReachTheirRegister : Prop :=
  ∀ (s : State) (offset : BitVec 12) (size : Nat) (value : BitVec 32) (i : StreamId),
    let queue : BitVec 8 := value.extractLsb' 16 8
    let index : BitVec 16 := value.setWidth 16
    exec (.registerWrite 0x00C#12 4 value) s = .next { s with port := { s.port with contextLo := value } } ∧
    exec (.registerWrite 0x010#12 4 value) s = .next { s with port := { s.port with contextHi := value } } ∧
    (value.getLsbD 1 = true → exec (.registerWrite 0x004#12 4 value) s = exec (.functionReset (value.getLsbD 0)) s) ∧
    (value.getLsbD 1 = false → value.getLsbD 0 = true → exec (.registerWrite 0x004#12 4 value) s = exec .attach s) ∧
    (value.getLsbD 1 = false → value.getLsbD 0 = false → exec (.registerWrite 0x004#12 4 value) s =
      exec (if s.port.part = .attaching then .attachCancel else .detach) s) ∧
    (queue = 0#8 → exec (.registerWrite 0x014#12 4 value) s = exec (.notifyAdminTail index) s) ∧
    (queue.toNat = i.val + 1 → exec (.registerWrite 0x014#12 4 value) s = exec (.notifyStreamTail i index) s) ∧
    (queue = 7#8 → exec (.registerWrite 0x014#12 4 value) s = exec (.notifyRelease index) s) ∧
    (usedQueue queue = false → exec (.registerWrite 0x014#12 4 value) s = exec (.notifyUnusedQueue queue index) s) ∧
    exec (.registerWrite 0x018#12 4 value) s = exec (.eventCauseWrite value) s ∧
    exec (.registerWrite 0x01C#12 4 value) s = exec (.eventMaskWrite value) s ∧
    (size ≠ 4 ∨ (offset ≠ 0x004#12 ∧ offset ≠ 0x00C#12 ∧ offset ≠ 0x010#12 ∧ offset ≠ 0x014#12 ∧ offset ≠ 0x018#12 ∧
        offset ≠ 0x01C#12) →
      exec (.registerWrite offset size value) s = .next s) ∧
    readRegister s.port 0x000#12 4 = 0x0F440101#32 ∧ readRegister s.port 0x00C#12 4 = s.port.contextLo ∧
    readRegister s.port 0x010#12 4 = s.port.contextHi ∧ readRegister s.port 0x014#12 4 = 0#32 ∧
    readRegister s.port 0x004#12 4 =
      (if s.port.part = .attached ∨ s.port.part = .fatal ∨ (s.port.part = .attaching ∧ s.port.cancelled = false) then 1#32
       else 0#32) ∧
    (readRegister s.port 0x008#12 4).toNat =
      (match s.port.part with
        | .detached => 0
        | .attaching => 1
        | .attached => 2
        | .detaching => 3
        | .fatal => 4) +
      2 ^ 8 * (match s.port.attachCode with
        | .none => 0
        | .contextAlign => 1
        | .contextRead => 2
        | .reserved => 3
        | .adminRing => 4
        | .completionRing => 5
        | .readLimit => 6
        | .coalesce => 7
        | .cancelled => 8) +
      2 ^ 16 * (match s.port.fatalCode with
        | .none => 0
        | .adminReadFault => 1
        | .linkLoss => 2) ∧
    (∀ x : BitVec 12 × Causes, x = (0x018#12, s.port.cause) ∨ x = (0x01C#12, s.port.mask) → ∀ b : Fin 32,
      (readRegister s.port x.1 4).getLsbD b.val =
        match b with
        | 0 => x.2.completion
        | 1 => x.2.attach
        | 2 => x.2.fatal
        | 3 => x.2.notifyError
        | _ => false) ∧
    (size ≠ 4 ∨ 0x020 ≤ offset.toNat ∨ offset.toNat % 4 ≠ 0 → readRegister s.port offset size = 0#32)

/-- R168, R170, R172: clearing the enables changes them alone. While bus mastering is off, setting enables and the link's
training change nothing more; setting bus mastering with the link down also drops the messages that wait, whose turn has come.
Once both are there, what waited is issued in the order it was asked: reads with consecutive names, those of the op in flight
then counted as its own; the write of the entry at the queue's head; a snapshot, after which its completion is due; a message,
unless it may no longer be sent. A message that the entry's write calls for follows all that waited. That requests and writes
wait for the link is log 8. -/
def Obligations.WaitingReadsAreIssuedInOrder : Prop :=
  ∀ (s : State) (b m : Bool),
    exec (.configBusMasterDisable b m) s = .next { s with port := { s.port with
      busMaster := s.port.busMaster && !b, messages := s.port.messages && !m } } ∧
    (((s.port.busMaster || b) && s.port.linkUp) = false →
      exec (.configBusMasterEnable b m) s = .next { s with port := { s.port with
        busMaster := s.port.busMaster || b, messages := s.port.messages || m
        waiting := if s.port.busMaster || b then s.port.waiting.filter fun a => a != .message else s.port.waiting } }) ∧
    (s.port.busMaster = false → exec .linkUp s = .next { s with port := { s.port with linkUp := true } }) ∧
    ∀ (c : Instr) (p : Port),
      (c = .configBusMasterEnable b m ∧ ((s.port.busMaster || b) && s.port.linkUp) = true ∧
        p = { s.port with busMaster := true, messages := s.port.messages || m, waiting := [] }) ∨
      (c = .linkUp ∧ s.port.busMaster = true ∧ p = { s.port with linkUp := true, waiting := [] }) →
      let u : State := { s with port := p }
      (∀ l : List (Requester × BitVec 64 × Nat), s.port.waiting = l.map (fun x => .read x.1 x.2.1 x.2.2) →
        let own : Nat := (l.filter fun x => match x.1 with
          | .raster _ => true
          | .attach => false
          | .admin => false
          | .fetch => false).length
        exec c s = .next { u with
          port := l.foldl (fun q x => q.issueRead x.1 x.2.1 x.2.2) p
          raster := match s.raster with
            | .executing op => .executing { op with readsOut := op.readsOut + own }
            | .free => .free
            | .holding i e => .holding i e
            | .posting op e => .posting op e }) ∧
      (s.port.waiting.count .entry ≤ 1 → (.entry ∈ s.port.waiting → s.ring.queue ≠ []) →
        ∃ t late, exec c s = .next t ∧ t.port.waiting = [] ∧ (late = [] ∨ late = [.interrupt]) ∧
          (.entry ∉ s.port.waiting → late = []) ∧
          t.port.sent = s.port.sent ++ u.putsAll s.port.nextId s.port.waiting ++ late) ∧
      (∀ e q k, s.port.waiting = [.entry] → s.port.part = .attached → s.ring.queue = e :: q → s.ring.comp = some k →
        (k.write + 1) % k.size ≠ k.release → exec c s = exec .completionEntryWrite u) ∧
      ∀ addr bytes e x, s.port.waiting = [.snapshot addr bytes] → s.port.part = .attached → s.admin = .awaiting e x →
        exec c s = .next (State.admitAsMade .admin
          { u with admin := .posting e x, port := { p with sent := s.port.sent ++ [.write addr bytes] } })

/-- R111, R135, R163, R164, R168, R171, R172: a link loss leaves every issued read to end by expiry; an ATTACHED part becomes
FATAL with LINK_LOSS, its lanes OFFLINE with their latches and counters kept, the blocks frozen as they stand, reads that waited
discarded and the FATAL cause set; in another part state nothing else changes. -/
def Obligations.LinkLossFreezesAnAttachedPart : Prop :=
  ∀ s : State,
    let lost : List ReadReq := s.port.outstanding.map fun r => { r with lost := true }
    (s.port.part ≠ .attached →
      exec .linkLoss s = .next { s with port := { s.port with linkUp := false, outstanding := lost } }) ∧
    (s.port.part = .attached → ∃ t, exec .linkLoss s = .next t ∧
      t.port.part = .fatal ∧ t.port.fatalCode = .linkLoss ∧ t.port.cause.fatal = true ∧ t.port.outstanding = lost ∧
      t.port.sent = s.port.sent ∧ (∀ a ∈ t.port.waiting, (∃ x y, a = .snapshot x y) ∨ a = .message) ∧
      t.ring = s.ring ∧ t.admin = s.admin ∧ t.streams = s.streams ∧ t.intake = s.intake ∧ t.raster = s.raster ∧
      t.bands = s.bands ∧ t.pending = s.pending ∧
      ∀ i, (t.lane i).state = .offline ∧ (t.lane i).out = none ∧ (t.lane i).credit = 0 ∧
        (t.lane i).latch = (s.lane i).latch ∧ (t.lane i).stale = (s.lane i).stale ∧ (t.lane i).bad = (s.lane i).bad ∧
        (t.lane i).resent = (s.lane i).resent)

/-! ## Host reads -/

/-- R57, R60, R169: the fetch arbiter's read, finished with all its bytes, makes the FETCHING latch it was issued for HELD
with the record and its verdict; an error status or the limit's expiry makes it FAULTED; a dropped read changes no latch. A
completion that leaves bytes missing only stores its bytes, and one for a request that is not outstanding changes nothing (log
7). The verdict is BAD_KIND exactly for a kind code other than 1 to 7, and good exactly for one of these with no flag but
NOTIFY, every reserved byte zero and the fields that R57's table allows at the stream's depth. -/
def Obligations.RecordReadsFillTheirLatch : Prop :=
  (∀ (d : Nat) (bs : List Byte),
    let kind : Nat := (byteAt bs 0).toNat
    let zero (a b : Nat) : Prop := ∀ k, a ≤ k → k < b → byteAt bs k = 0#8
    let value (k : Nat) : Prop := (byteAt bs k).toNat < 2 ^ d
    let modeKnown : Prop := (byteAt bs 21).toNat ≤ 3
    (checkRecord d bs = .badKind ↔ kind = 0 ∨ 8 ≤ kind) ∧
    (checkRecord d bs = .good ↔ (byteAt bs 1).toNat ≤ 1 ∧
      ((kind = 1 ∧ zero 10 64 ∧ (byteAt bs 8 = 0#8 ∨ (byteAt bs 8 = 1#8 ∧ value 9))) ∨
      (kind = 2 ∧ zero 22 64 ∧ modeKnown ∧ value 20) ∨
      (kind = 3 ∧ zero 23 24 ∧ zero 26 32 ∧ zero 40 64 ∧ modeKnown ∧
        ((byteAt bs 22).toNat = 1 ∨ (byteAt bs 22).toNat = d) ∧ le16 bs 24 ≠ 0#16 ∧ value 20) ∨
      (kind = 4 ∧ zero 20 21 ∧ zero 32 64 ∧ modeKnown) ∨
      ((kind = 5 ∨ kind = 6) ∧ zero 8 64) ∨
      (kind = 7 ∧ zero 2 4 ∧ zero 9 64 ∧ (byteAt bs 8).toNat ≤ 1)))) ∧
  ∀ (s : State) (id off : Nat) (data : List Byte) (q : ReadReq),
    (s.port.request id = none →
      exec (.readCompletion id off data true) s = .next s ∧ exec (.readCompletion id off data false) s = .next s ∧
      exec (.readLimitExpiry id) s = .next s) ∧
    (s.port.request id = some q → q.lost = false → (q.fill off data).whole = none →
      exec (.readCompletion id off data true) s = .next { s with port := { s.port with
        outstanding := s.port.outstanding.map fun x => if x.id = id then q.fill off data else x } }) ∧
    ∀ (i : StreamId) (f : FetchRead),
      s.port.request id = some q → q.lost = false → q.who = .fetch → s.port.part = .attached →
      s.intake.fetchRead = some f → f.stream = i →
      let done : State :=
        { s with
          intake := { s.intake with fetchRead := none }
          port := { s.port with outstanding := s.port.outstanding.filter fun x => x.id != q.id } }
      let latched (l : Latch) : State := done.setStream i { s.stream i with latch := l }
      (∀ (m : Nat) (c : StreamCfg), f.dropped = false → (s.stream i).latch = .fetching m → (s.stream i).cfg = some c →
        (∀ bs, (q.fill off data).whole = some bs →
          exec (.readCompletion id off data true) s = .next (latched (.held m bs (checkRecord c.depth bs)))) ∧
        exec (.readCompletion id off data false) s = .next (latched (.faulted m)) ∧
        exec (.readLimitExpiry id) s = .next (latched (.faulted m))) ∧
      (f.dropped = true →
        ((q.fill off data).whole ≠ none → exec (.readCompletion id off data true) s = .next done) ∧
        exec (.readCompletion id off data false) s = .next done ∧
        exec (.readLimitExpiry id) s = .next done)

/-- R29, R141, R143, R171, R172: the admin fetch, finished with its bytes, gives the admin unit the record at the head as a
command taken while head and tail differ, and is discarded while they are equal, the head as it was in both cases; an error
status or the limit's expiry makes the part FATAL with ADMIN_READ_FAULT, every lane OFFLINE, the admin head where it was. That
the record then waits for the row of its command is log 3. As R32, R92, R93 and R172 say, a read that finishes in FATAL or
DETACHING reaches no unit, whoever asked for it: it is no longer outstanding, the fetch arbiter and, in DETACHING, a FETCHING
admin unit drop it, and nothing else changes. A completion for a read that a link loss cut off changes nothing: that read ends
by expiry. -/
def Obligations.AdminReadsGiveTheCommandOrFatal : Prop :=
  (∀ (s : State) (id off : Nat) (data : List Byte) (good : Bool) (q : ReadReq), s.port.request id = some q →
    (q.lost = true → exec (.readCompletion id off data good) s = .next s) ∧
    (s.port.part = .fatal ∨ s.port.part = .detaching → ∀ c,
      c = .readLimitExpiry id ∨
      (c = .readCompletion id off data good ∧ q.lost = false ∧ (good = true → (q.fill off data).whole ≠ none)) →
      exec c s = .next { s with
        port := { s.port with outstanding := s.port.outstanding.filter fun x => x.id != q.id }
        admin := if q.who = .admin ∧ s.port.part = .detaching ∧ s.admin = .fetching then .idle else s.admin
        intake := if q.who = .fetch then { s.intake with fetchRead := none } else s.intake })) ∧
  ∀ (s : State) (id off : Nat) (data : List Byte) (q : ReadReq) (g : Ring),
    s.port.request id = some q → q.lost = false → q.who = .admin → s.port.part = .attached → s.admin = .fetching →
    s.ring.admin = some g →
    let rest : List ReadReq := s.port.outstanding.filter fun x => x.id != q.id
    (∀ bs, (q.fill off data).whole = some bs →
      exec (.readCompletion id off data true) s = .next { s with
        admin := if g.head = g.tail then .idle else .fetched bs g.head false
        port := { s.port with outstanding := rest } }) ∧
    ∀ c, c = .readCompletion id off data false ∨ c = .readLimitExpiry id → ∃ t, exec c s = .next t ∧
      t.port.part = .fatal ∧ t.port.fatalCode = .adminReadFault ∧ t.port.cause.fatal = true ∧ t.port.outstanding = rest ∧
      (∀ a ∈ t.port.waiting, (∃ x y, a = .snapshot x y) ∨ a = .message) ∧ t.ring = s.ring ∧ t.admin = s.admin ∧
      t.streams = s.streams ∧ t.intake = s.intake ∧ t.raster = s.raster ∧ t.bands = s.bands ∧ t.pending = s.pending ∧
      ∀ i, (t.lane i).state = .offline ∧ (t.lane i).latch = (s.lane i).latch

/-- R162, R163: the context read ends the attach. Cancelled: DETACHED with CANCELLED, whatever the read brought. A fault, an
error status or the limit's expiry: CONTEXT_READ; a read that a link loss cut off ends so, by expiry. A block whose first
failing check has code c: that code. A valid block: ATTACHED with the block's read limit and rings, positions 0, phase 1, an
empty queue and every other block initial. The ATTACH cause is set each time. The code is NONE exactly for a block whose
reserved bytes are zero, whose ring bases are multiples of 64, whose ring sizes are powers of two from 16 to 4096, whose read
limit is not 0 and whose coalescing count is 1 to 64; otherwise it is the code of the first of these checks that fails:
RESERVED, ADMIN_RING, COMPLETION_RING, READ_LIMIT, COALESCE. -/
def Obligations.ContextReadsEndTheAttach : Prop :=
  (∀ bs : List Byte,
    let zero : Prop := ∀ k, 23 ≤ k → k < 128 → byteAt bs k = 0#8
    let admin : Prop := (le64 bs 0).toNat % 64 = 0 ∧ ∃ e, 4 ≤ e ∧ e ≤ 12 ∧ (le16 bs 16).toNat = 2 ^ e
    let comp : Prop := (le64 bs 8).toNat % 64 = 0 ∧ ∃ e, 4 ≤ e ∧ e ≤ 12 ∧ (le16 bs 18).toNat = 2 ^ e
    let limit : Prop := byteAt bs 20 ≠ 0#8
    let count : Prop := 1 ≤ (byteAt bs 21).toNat ∧ (byteAt bs 21).toNat ≤ 64
    (contextCode bs = .none ↔ zero ∧ admin ∧ comp ∧ limit ∧ count) ∧
    (contextCode bs = .reserved ↔ ¬zero) ∧
    (contextCode bs = .adminRing ↔ zero ∧ ¬admin) ∧
    (contextCode bs = .completionRing ↔ zero ∧ admin ∧ ¬comp) ∧
    (contextCode bs = .readLimit ↔ zero ∧ admin ∧ comp ∧ ¬limit) ∧
    (contextCode bs = .coalesce ↔ zero ∧ admin ∧ comp ∧ limit ∧ ¬count)) ∧
  ∀ (s : State) (id off : Nat) (data : List Byte) (q : ReadReq),
    s.port.request id = some q → q.who = .attach → s.port.part = .attaching →
    let rest : List ReadReq := s.port.outstanding.filter fun x => x.id != q.id
    let failed (code : AttachCode) : State := State.raise .ofAttach { s with port := { s.port with
      part := .detached, cancelled := false, attachCode := code, outstanding := rest } }
    (s.port.cancelled = true →
      exec (.readLimitExpiry id) s = .next (failed .cancelled) ∧
      (q.lost = false →
        ((q.fill off data).whole ≠ none → exec (.readCompletion id off data true) s = .next (failed .cancelled)) ∧
        exec (.readCompletion id off data false) s = .next (failed .cancelled))) ∧
    (q.lost = true → exec (.readCompletion id off data true) s = .next s ∧ exec (.readCompletion id off data false) s = .next s) ∧
    (s.port.cancelled = false →
      exec (.readLimitExpiry id) s = .next (failed .contextRead) ∧
      (q.lost = false → exec (.readCompletion id off data false) s = .next (failed .contextRead)) ∧
      ∀ bs, q.lost = false → (q.fill off data).whole = some bs →
        (contextCode bs ≠ .none → exec (.readCompletion id off data true) s = .next (failed (contextCode bs))) ∧
        (contextCode bs = .none → ∃ t, exec (.readCompletion id off data true) s = .next t ∧
          t.port.part = .attached ∧ t.port.attachCode = s.port.attachCode ∧ t.port.cause.attach = true ∧
          t.port.readLimit = some (byteAt bs 20).toNat ∧ t.port.outstanding = rest ∧
          t.ring = { admin := some { base := le64 bs 0, size := (le16 bs 16).toNat, head := 0, tail := 0 }
                     comp := some { base := le64 bs 8, size := (le16 bs 18).toNat, write := 0, release := 0, phase := true }
                     queue := []
                     coalesce := some { count := (byteAt bs 21).toNat, time := (byteAt bs 22).toNat, counter := 0, timer := false }
                     laneNext := 0, streamNext := 0 } ∧
          t.admin = .idle ∧ t.raster = .free ∧ t.intake = Intake.initial ∧ (∀ i, t.stream i = Stream.initial) ∧
          (∀ i, (t.lane i).state = .offline ∧ (t.lane i).latch = none ∧ (t.lane i).credit = 0) ∧
          t.bands.free = List.finRange 64 ∧ (∀ k, t.slot k = none) ∧ t.bands.mem = s.bands.mem))

/-- R82, R83, R85, R88, R89, R91: when the last request of a PLACE's source row has returned with data, the row is written;
then the unit asks for the next visible source row, or, after the last, the op ends with its OK entry, or without one if
NOTIFY is clear or the stream is ABORTING. While other requests are outstanding, the bytes are kept. A request's fault marks
the op; the data of a request of a marked op is not used; and the last outstanding request of a marked op ends it: the
destination slot damaged, the stream HALTED with SOURCE_FAULT, an entry offered; an ABORTING stream's op ends without any of
these. -/
def Obligations.PlaceRowsAreWrittenOrFault : Prop :=
  ∀ (s : State) (id off : Nat) (data : List Byte) (q : ReadReq) (first : Nat) (op : Op) (box : Rect) (src : BitVec 64)
    (pitch ds : Nat) (ink : BitVec 2) (mode : Combine),
    s.port.request id = some q → q.lost = false → q.who = .raster first → s.port.part = .attached →
    s.raster = .executing op → op.kind = .place box src pitch ds ink mode → op.area.isEmpty = false →
    let u : State := { s with port := { s.port with outstanding := s.port.outstanding.filter fun x => x.id != q.id } }
    let left : Nat := op.readsOut - 1
    let entry (st : Status) : Entry :=
      { tag := op.tag, source := BitVec.ofNat 8 (op.stream.val + 1), kind := op.entryKind, status := st, empty := false
        index := BitVec.ofNat 16 op.index, head := BitVec.ofNat 16 op.entryHead, extra := op.band.setWidth 32 }
    (∀ bs, (q.fill off data).whole = some bs → op.fault = false →
      let op' : Op := { op with
        readsOut := left, rowData := op.rowData.take first ++ bs ++ op.rowData.drop (first + bs.length) }
      let next : Op := { op' with rowsDone := op.rowsDone + 1 }
      let v : State := { u with bands := op'.writeRow s.bands }
      let row : Nat := (((op.area.r0 + (op.rowsDone + 1) : Nat) : Int) - box.y).toNat
      let start : Nat := ((op.area.c0 : Int) - box.x).toNat * ds / 8
      let len : Nat := (((op.area.c1 : Int) - box.x).toNat * ds - 1) / 8 - start + 1
      (2 ≤ op.readsOut → exec (.readCompletion id off data true) s = .next { u with raster := .executing op' }) ∧
      (op.readsOut = 1 →
        (op.rowsDone + 1 < op.area.r1 - op.area.r0 → exec (.readCompletion id off data true) s = .next { v with
          raster := .executing { next with
            readsOut := if s.port.busMaster && s.port.linkUp then (readPieces len).length else 0
            rowData := List.replicate len 0#8 }
          port := u.port.askRow (src + BitVec.ofNat 64 (row * pitch + start)) len }) ∧
        (op.area.r1 - op.area.r0 ≤ op.rowsDone + 1 →
          ((s.stream op.stream).st = .aborting ∨ op.notify = false →
            exec (.readCompletion id off data true) s = .next { v with raster := .free }) ∧
          ((s.stream op.stream).st ≠ .aborting → op.notify = true →
            exec (.readCompletion id off data true) s =
              .next (State.admitAsMade .raster { v with raster := .posting next (entry .ok) }))))) ∧
    ∀ c, c = .readCompletion id off data false ∨ c = .readLimitExpiry id ∨
        (c = .readCompletion id off data true ∧ (q.fill off data).whole ≠ none ∧ op.fault = true) →
      let bad : Op := { op with readsOut := left, fault := true }
      (2 ≤ op.readsOut → exec c s = .next { u with raster := .executing bad }) ∧
      (op.readsOut = 1 →
        ((s.stream op.stream).st = .aborting → exec c s = .next { u with raster := .free }) ∧
        ((s.stream op.stream).takesRecords = true →
          let info : HaltInfo := { reason := .sourceFault, index := op.index, band := some op.band }
          let marked : State := u.putSlot op.slot ((s.slot op.slot).map fun b => { b with damaged := true })
          exec c s = .next (State.admitAsMade .raster
            { marked.setStream op.stream ((s.stream op.stream).haltedBy info) with
              intake := s.intake.drop op.stream
              raster := .posting bad (entry .sourceFault) })))

/-- R29, R59, R139, R168: an IDLE admin unit fetches the 64 bytes at base + 64 × head when head and tail differ; the fetch arbiter
does so for the stream it chooses, whose latch becomes FETCHING, and its next choice starts after that stream. A read asked for
is issued at once, under the read limit, with bus mastering enabled and the link up; otherwise it waits behind the others (log 8).
A fetch that its rule does not allow changes nothing (log 2). -/
def Obligations.FetchesReadTheRecordAtTheHead : Prop :=
  ∀ (s : State) (i : StreamId) (r : Ring),
    (s.ring.admin = some r → s.port.part = .attached → s.admin = .idle → r.head ≠ r.tail →
      exec .adminFetch s = .next { s with
        admin := .fetching, port := s.port.askRead .admin (r.base + BitVec.ofNat 64 (64 * r.head)) 64 }) ∧
    (s.ring.admin = some r → s.admin ≠ .idle ∨ r.head = r.tail → exec .adminFetch s = .next s) ∧
    (s.fetchChoice = some i → (s.stream i).ring = some r →
      exec .recordFetch s = .next
        { s.setStream i { s.stream i with latch := .fetching r.head } with
          intake := { s.intake with
            fetchRead := some { stream := i, index := r.head, dropped := false }, fetchNext := i + 1 }
          port := s.port.askRead .fetch (r.base + BitVec.ofNat 64 (64 * r.head)) 64 }) ∧
    (s.fetchChoice = none → exec .recordFetch s = .next s) ∧
    ∀ (p : Port) (who : Requester) (addr : BitVec 64) (len : Nat), who ≠ .attach → p.askRead who addr len =
      if p.busMaster = true ∧ p.linkUp = true then
        { p with
          outstanding := p.outstanding ++ [{ id := p.nextId, who := who, addr := addr, len := len
                                             limit := p.readLimit.getD 0, got := List.replicate len none, lost := false }]
          nextId := p.nextId + 1
          sent := p.sent ++ [.readRequest p.nextId addr len] }
      else { p with waiting := p.waiting ++ [.read who addr len] }

/-! ## Admin commands -/

/-- R30: the checks in their order. An unknown code gives BAD_KIND; then a stream number above 3 gives BAD_STREAM; then a
stream (and lane) state in which the command is not taken gives STATE; then a bad field or reserved byte gives BAD_FIELD. The
command leaves the admin unit, the admin head moves past it (R29), its completion is offered with extra 0, and nothing else
changes. A row that does not take the fetched record changes nothing (log 2); which row takes an unknown action is log 4. The
fields are good for each code but that of CONFIGURE_STREAM exactly when the reserved bytes are zero, an action is 0 or 1, and
a result address is a multiple of 64. -/
def Obligations.RefusedCommandsChangeNothingElse : Prop :=
  (∀ bs : List Byte,
    let code : Nat := (byteAt bs 0).toNat
    let zero (a b : Nat) : Prop := ∀ k, a ≤ k → k < b → byteAt bs k = 0#8
    (code = 0x11 → (fieldsGood bs = true ↔ zero 2 4 ∧ zero 10 64)) ∧
    (code = 0x12 ∨ code = 0x13 ∨ code = 0x14 → (fieldsGood bs = true ↔ zero 2 4 ∧ zero 8 64)) ∧
    (code = 0x15 ∨ code = 0x16 → (fieldsGood bs = true ↔ zero 2 4 ∧ zero 9 64 ∧ (byteAt bs 8).toNat ≤ 1)) ∧
    (code = 0x17 → (fieldsGood bs = true ↔ zero 2 4 ∧ zero 16 64 ∧ (le64 bs 8).toNat % 64 = 0))) ∧
  ∀ (s : State) (bs : List Byte) (n : Nat) (r : Ring), s.HasCommand bs n r →
    (rowTakes bs = .unknownCommand → exec .unknownCommand s = .next (s.answered bs n r .badKind 0#32)) ∧
    (rowTakes bs ≠ .unknownCommand → 4 ≤ (byteAt bs 1).toNat →
      exec (rowTakes bs) s = .next (s.answered bs n r .badStream 0#32)) ∧
    (∀ i : StreamId, rowTakes bs ≠ .unknownCommand → (byteAt bs 1).toNat = i.val →
      (takenFor (byteAt bs 0) (s.stream i) (s.lane i) = false →
        exec (rowTakes bs) s = .next (s.answered bs n r .state 0#32)) ∧
      (takenFor (byteAt bs 0) (s.stream i) (s.lane i) = true → fieldsGood bs = false →
        exec (rowTakes bs) s = .next (s.answered bs n r .badField 0#32))) ∧
    ∀ c ∈ [Instr.unknownCommand, .configureStream, .startStream, .stopStream, .abortStream, .releaseStream,
        .clearStreamResume, .clearStreamSkipBand, .clearLaneResend, .clearLaneSkip, .queryStream],
      c ≠ rowTakes bs → exec c s = .next s

/-- R1, R33, R34: a CONFIGURE_STREAM whose fields are in range is refused with QUOTA_SMALL when its quota is below window × P,
then with POOL_OVERCOMMIT when it and the other streams' quotas exceed 64; otherwise the stream is READY with the new
configuration and ring, its numbering 0, no mark, no halt information and no skip band. The fields are in range exactly within
R33's table, the reserved bytes zero. -/
def Obligations.ConfigureStreamMakesTheStreamReady : Prop :=
  (∀ bs : List Byte, byteAt bs 0 = 0x10#8 → (fieldsGood bs = true ↔
    let num (k : Nat) : Nat := (byteAt bs k).toNat
    let wide (k : Nat) : Nat := (le16 bs k).toNat
    (∀ k, (2 ≤ k ∧ k < 4) ∨ k = 25 ∨ k = 33 ∨ (36 ≤ k ∧ k < 64) → byteAt bs k = 0#8) ∧
    (le64 bs 8).toNat % 64 = 0 ∧ (∃ e, 4 ≤ e ∧ e ≤ 12 ∧ wide 16 = 2 ^ e) ∧
    (32 ≤ wide 18 ∧ wide 18 ≤ 16384 ∧ wide 18 % 32 = 0) ∧ (1 ≤ wide 20 ∧ wide 20 ≤ 256) ∧ (num 22 = 1 ∨ num 22 = 2) ∧
    (1 ≤ num 23 ∧ num 23 ≤ 64) ∧ (1 ≤ num 24 ∧ num 24 ≤ 4) ∧ (wide 26 = 256 ∨ wide 26 = 512 ∨ wide 26 = 1024) ∧
    (2 ≤ wide 28 ∧ wide 28 ≤ 500) ∧ (1 ≤ num 30 ∧ num 30 ≤ 15) ∧ 1 ≤ num 31 ∧ 1 ≤ num 32 ∧ wide 34 ≤ 10000)) ∧
  ∀ (s : State) (i : StreamId) (bs : List Byte) (n : Nat) (r : Ring), s.Taken 0x10#8 i bs n r →
    let c : StreamCfg :=
      { width := (le16 bs 18).toNat, height := (le16 bs 20).toNat, depth := (byteAt bs 22).toNat
        quota := (byteAt bs 23).toNat, window := (byteAt bs 24).toNat, chunkSize := (le16 bs 26).toNat
        replyLimit := (le16 bs 28).toNat, resendLimit := (byteAt bs 30).toNat, waitInterval := (byteAt bs 31).toNat
        waitLimit := (byteAt bs 32).toNat, starveLimit := (le16 bs 34).toNat }
    let pages : Nat := (c.width * c.depth / 8 * c.height + 32767) / 32768
    let others : Nat := (s.setStream i Stream.initial).quotaSum
    (c.quota < c.window * pages → exec .configureStream s = .next (s.answered bs n r .quotaSmall 0#32)) ∧
    (c.window * pages ≤ c.quota → 64 < others + c.quota →
      exec .configureStream s = .next (s.answered bs n r .poolOvercommit 0#32)) ∧
    (c.window * pages ≤ c.quota → others + c.quota ≤ 64 →
      exec .configureStream s = .next ((s.setStream i
        { s.stream i with
          st := .ready, ret := none, cfg := some c
          ring := some { base := le64 bs 8, size := (le16 bs 16).toNat, head := 0, tail := 0 }
          halt := none, skip := none, dstop := (s.stream i).dstop.filter fun d => d.due.isSome
          nextOpen := 0#16, nextEmit := 0#16, marks := [] }).answered bs n r .ok 0#32))

/-- R36, R106, R121, R137: START_STREAM makes a READY stream RUNNING from the first band number it carries, and its lane SYNCING
with fresh working parameters, no exchange, counters 0 and no starved band. -/
def Obligations.StartStreamRunsTheStreamAndItsLane : Prop :=
  ∀ (s : State) (i : StreamId) (bs : List Byte) (n : Nat) (r : Ring) (c : StreamCfg), s.Taken 0x11#8 i bs n r →
    (s.stream i).cfg = some c →
    exec .startStream s = .next (((s.setStream i
      { s.stream i with
        st := .running, ret := none, halt := none, skip := none
        dstop := (s.stream i).dstop.filter fun d => d.due.isSome
        nextOpen := le16 bs 8, nextEmit := le16 bs 8, marks := [] }).setLane i
      { (s.lane i).quiet with
        state := .syncing
        params := some { chunkSize := c.chunkSize, replyLimit := c.replyLimit, resendLimit := c.resendLimit
                         waitInterval := c.waitInterval, waitLimit := c.waitLimit, starveLimit := c.starveLimit }
        resendCount := 0, waitCount := 0, progress := none, starved := none, stale := 0, bad := 0, resent := 0 }).answered
      bs n r .ok 0#32)

/-- R37: STOP_STREAM completes at once in READY, with next-emit as extra; it makes a RUNNING stream DRAINING, and a HALTED one
drain-pending, its completion deferred. -/
def Obligations.StopStreamStartsTheDrain : Prop :=
  ∀ (s : State) (i : StreamId) (bs : List Byte) (n : Nat) (r : Ring), s.Taken 0x12#8 i bs n r →
    let owed : DeferredStop := { tag := le32 bs 4, index := n, head := r.head, due := none }
    ((s.stream i).st = .ready →
      exec .stopStream s = .next (s.answered bs n r .ok ((s.stream i).nextEmit.setWidth 32))) ∧
    ((s.stream i).st = .running →
      exec .stopStream s = .next (State.deferred r (s.setStream i { s.stream i with st := .draining, dstop := some owed }))) ∧
    ((s.stream i).st = .halted →
      exec .stopStream s = .next (State.deferred r (s.setStream i { s.stream i with ret := some .draining, dstop := some owed })))

/-- R46: ABORT_STREAM in READY sets the ring head to the tail and completes at once with the number of records discarded,
(tail − head) mod size, and nothing else of the stream changes. In RUNNING, DRAINING and HALTED the stream is ABORTING at the
first wait of the abort procedure (R47), its latch EMPTY, a fetch of it in flight dropped, the completion deferred, and the
admin unit IDLE. In UNCONFIGURED and ABORTING the command is refused with STATE. -/
def Obligations.AbortStreamDiscardsOrBegins : Prop :=
  ∀ (s : State) (i : StreamId) (bs : List Byte) (n : Nat) (r : Ring),
    (∀ g, s.Taken 0x13#8 i bs n r → (s.stream i).st = .ready → (s.stream i).ring = some g →
      exec .abortStream s = .next ((s.setStream i { s.stream i with ring := some { g with head := g.tail } }).answered bs n r .ok
        (BitVec.ofNat 32 ((g.tail + g.size - g.head) % g.size)))) ∧
    (s.Taken 0x13#8 i bs n r → (s.stream i).st ≠ .ready →
      exec .abortStream s = .next (State.deferred r
        { s.setStream i
            { s.stream i with
              st := .aborting, ret := none, latch := .empty, abortAt := some .op
              dabort := some { tag := le32 bs 4, index := n, head := r.head, due := false } } with
          intake := s.intake.drop i })) ∧
    (s.HasCommand bs n r → byteAt bs 0 = 0x13#8 → (byteAt bs 1).toNat = i.val →
      (s.stream i).st = .unconfigured ∨ (s.stream i).st = .aborting →
      exec .abortStream s = .next (s.answered bs n r .state 0#32))

/-- R35, R137: RELEASE_STREAM takes every value of the stream's context, ring, numbering and latch to its initial value, but for a
STOP completion that is due, and clears the lane's counters. -/
def Obligations.ReleaseStreamForgetsTheStream : Prop :=
  ∀ (s : State) (i : StreamId) (bs : List Byte) (n : Nat) (r : Ring), s.Taken 0x14#8 i bs n r →
    exec .releaseStream s = .next (((s.setStream i
      { Stream.initial with dstop := (s.stream i).dstop.filter fun d => d.due.isSome }).setLane i
      { s.lane i with stale := 0, bad := 0, resent := 0 }).answered bs n r .ok 0#32)

/-- R43, R44: CLEAR_STREAM returns a HALTED stream to its return state and keeps its halt information. SKIP_BAND also discards
the halt's band if it is OPEN (CLOSED and blank, its pages returned at once, no notify, no tag) and makes it the skip band. A
stream that is DRAINING again is looked at for its drain end, as R39 says, before the completion is offered (log 21). That
SKIP_BAND looks at the band before any drain auto-close is log 22. -/
def Obligations.ClearStreamResumesAndSkips : Prop :=
  ∀ (s : State) (i : StreamId) (bs : List Byte) (n : Nat) (r : Ring), s.Taken 0x15#8 i bs n r →
    let back : Stream := { s.stream i with
      st := if (s.stream i).ret = some .draining then .draining else .running, ret := none }
    let band : Option Band := (s.stream i).halt.bind HaltInfo.band
    let resumed : State := (s.setStream i back).lookForDrainEnd i
    (byteAt bs 8 = 0#8 → exec .clearStreamResume s = .next (resumed.answered bs n r .ok 0xFFFFFFFF#32)) ∧
    (byteAt bs 8 = 1#8 → (∀ m, band = some m → s.openSlot i m = none) →
      exec .clearStreamSkipBand s = .next (resumed.answered bs n r .ok 0xFFFFFFFF#32)) ∧
    ∀ m k b, byteAt bs 8 = 1#8 → band = some m → s.openSlot i m = some k → s.slot k = some b →
      exec .clearStreamSkipBand s = .next (State.answered bs n r .ok (m.setWidth 32)
        { s.setStream i { back with skip := some m } with
          bands := { s.bands with
            free := s.bands.free ++ b.pages
            slots := putAt s.bands.slots k
              (some { b with st := .closed, blank := true, notify := false, tag := none, pages := [] }) } })

/-- R51, R106, R127, R128, R15: CLEAR_LANE takes the lane to SYNCING with fresh working parameters and looks for the drain end
before its completion is offered. SKIP, with a SENDING slot, first frees that slot, advances next-emit and makes marks due,
without BAND_SENT, and its completion names the band. Due OK are, of the marks not yet due, those up to the last whose
boundary is at distance 65535 from next-emit; the others stay. -/
def Obligations.ClearLaneResynchronises : Prop :=
  (∀ (nextEmit : Band) (marks : List Mark), ∃ passed others,
    marks = passed ++ others ∧
    makeDue nextEmit marks =
      passed.map (fun m => { m with st := if m.st = .boundary then .dueOk else m.st }) ++ others ∧
    (∀ m ∈ others, bandDist m.boundary nextEmit ≠ 65535) ∧
    ∀ m, passed.getLast? = some m → bandDist m.boundary nextEmit = 65535) ∧
  ∀ (s : State) (i : StreamId) (bs : List Byte) (n : Nat) (r : Ring) (c : StreamCfg), s.Taken 0x16#8 i bs n r →
    (s.stream i).cfg = some c →
    let resync (l : Lane) : Lane :=
      { l.quiet with
        state := .syncing
        params := some { chunkSize := c.chunkSize, replyLimit := c.replyLimit, resendLimit := c.resendLimit
                         waitInterval := c.waitInterval, waitLimit := c.waitLimit, starveLimit := c.starveLimit }
        resendCount := 0, waitCount := 0, progress := none }
    let again : State := s.setLane i (resync (s.lane i))
    (byteAt bs 8 = 0#8 →
      exec .clearLaneResend s = .next ((again.lookForDrainEnd i).answered bs n r .ok 0xFFFFFFFF#32)) ∧
    (byteAt bs 8 = 1#8 → s.sendingSlot i = none →
      exec .clearLaneSkip s = .next ((again.lookForDrainEnd i).answered bs n r .ok 0xFFFFFFFF#32)) ∧
    ∀ k b, byteAt bs 8 = 1#8 → s.sendingSlot i = some k → s.slot k = some b →
      let left : State := State.offerStream i
        { s.setStream i
            { s.stream i with
              nextEmit := (s.stream i).nextEmit + 1, marks := makeDue ((s.stream i).nextEmit + 1) (s.stream i).marks } with
          bands := { s.bands with free := s.bands.free ++ b.pages, slots := putAt s.bands.slots k none } }
      exec .clearLaneSkip s = .next
        (((left.setLane i (resync (s.lane i))).lookForDrainEnd i).answered bs n r .ok (b.band.setWidth 32))

/-- R52, R170, R176: QUERY_STREAM issues one write of the stream's 64-byte snapshot, after which its completion is due; while
the write must wait, the completion is not yet due (log 3). The snapshot shows the stream's and its lane's values at the places
of 9.6 and in its codes, an absent value as its marker, the reserved bytes 0; that of an UNCONFIGURED stream is the one R176
gives. -/
def Obligations.QueryStreamWritesTheSnapshot : Prop :=
  ∀ (s : State) (i : StreamId) (bs : List Byte) (n : Nat) (r : Ring), s.Taken 0x17#8 i bs n r →
    let snap : List Byte := s.querySnapshot i
    (s.port.busMaster = true → s.port.linkUp = true →
      exec .queryStream s = .next (State.answered bs n r .ok 0#32
        { s with port := { s.port with sent := s.port.sent ++ [.write (le64 bs 8) snap] } })) ∧
    (s.port.busMaster = false ∨ s.port.linkUp = false →
      exec .queryStream s = .next { s.deferred r with
        admin := .awaiting (commandEntry bs n r .ok 0#32) (some i)
        port := { s.port with waiting := s.port.waiting ++ [.snapshot (le64 bs 8) snap] } }) ∧
    snap.length = 64 ∧
    ((s.stream i).st = .unconfigured →
      snap = [0#8, 0xFF#8, 0#8, 0#8, 0xFF#8, 0xFF#8, 0#8, 0#8] ++ List.replicate 8 0xFF#8 ++ List.replicate 48 0#8) ∧
    (∀ g, (s.stream i).st ≠ .unconfigured → (s.stream i).ring = some g →
      (∀ k, k = 6 ∨ k = 7 ∨ k = 23 ∨ k = 30 ∨ k = 31 ∨ (38 ≤ k ∧ k < 64) → byteAt snap k = 0#8) ∧
      byteAt snap 0 = (match (s.stream i).st with
        | .unconfigured => 0#8
        | .ready => 1#8
        | .running => 2#8
        | .draining => 3#8
        | .halted => 4#8
        | .aborting => 5#8) ∧
      byteAt snap 1 = (match (s.stream i).ret with
        | some .running => 2#8
        | some .draining => 3#8
        | none => 0xFF#8) ∧
      byteAt snap 2 = (if (s.stream i).dstop = none then 0#8 else 1#8) ∧
      byteAt snap 3 = (match (s.stream i).halt.map HaltInfo.reason with
        | none => 0#8
        | some .recordError => 1#8
        | some .sourceFault => 2#8
        | some .ringFault => 3#8) ∧
      le16 snap 4 = (match (s.stream i).halt with
        | none => 0xFFFF#16
        | some h => BitVec.ofNat 16 h.index) ∧
      le32 snap 8 = (match (s.stream i).halt.bind HaltInfo.band with
        | none => 0xFFFFFFFF#32
        | some m => m.setWidth 32) ∧
      le32 snap 12 = (match (s.stream i).skip with
        | none => 0xFFFFFFFF#32
        | some m => m.setWidth 32) ∧
      le16 snap 16 = (s.stream i).nextOpen ∧ le16 snap 18 = (s.stream i).nextEmit ∧
      byteAt snap 20 = BitVec.ofNat 8 (s.openCount i) ∧ byteAt snap 21 = BitVec.ofNat 8 (s.pagesHeld i) ∧
      byteAt snap 22 = BitVec.ofNat 8 (s.stream i).marks.length ∧ le16 snap 24 = BitVec.ofNat 16 g.head ∧
      le16 snap 26 = BitVec.ofNat 16 g.tail ∧
      byteAt snap 28 = (match (s.lane i).state with
        | .offline => 0#8
        | .syncing => 1#8
        | .idle => 2#8
        | .sending => 3#8
        | .cancelling => 4#8
        | .halted => 5#8
        | .lost => 6#8) ∧
      byteAt snap 29 = BitVec.ofNat 8 (s.lane i).credit ∧ le16 snap 32 = BitVec.ofNat 16 (s.lane i).stale ∧
      le16 snap 34 = BitVec.ofNat 16 (s.lane i).bad ∧ le16 snap 36 = BitVec.ofNat 16 (s.lane i).resent)

/-! ## Hand-overs -/

/-- R41, R65, R66, R67: a chosen FAULTED latch halts its stream with RING_FAULT at its index, no record consumed. A record of
unknown kind halts it with RECORD_ERROR and no band, one of a known kind with a bad field with the band the kind names; both
are consumed and have no other effect. Each holds the raster unit with its entry. -/
def Obligations.FaultsAndBadRecordsHaltTheStream : Prop :=
  ∀ (s : State) (i : StreamId) (n : Nat),
    (s.handOverChoice = some i → (s.stream i).latch = .faulted n →
      exec .ringFault s = .next (State.holding i
        { tag := 0#32, source := BitVec.ofNat 8 (i.val + 1), kind := 0xFF#8, status := .ringFault, empty := false
          index := BitVec.ofNat 16 n, head := BitVec.ofNat 16 n, extra := 0xFFFFFFFF#32 }
        { s.setStream i ((s.stream i).haltedBy { reason := .ringFault, index := n, band := none }) with
          intake := { s.intake with handNext := i + 1 }.drop i })) ∧
    ∀ (bs : List Byte) (c : StreamCfg) (r : Ring),
      (s.Chosen i n bs .badKind c r → exec .unknownRecordKind s = .next (s.failed i n bs r .badKind none)) ∧
      ∀ k, s.Chosen i n bs .badField c r → RecKind.ofCode (byteAt bs 0) = some k →
        exec (kindRow k) s = .next (s.failed i n bs r .badField (if k = .mark then none else some (le16 bs 2)))

/-- R69: the band checks. An OPEN_BAND fails with BAND_NUMBER when it does not name next-open, else with WINDOW_FULL when the
window is full; the other kinds that name a band fail with BAND_NOT_OPEN when it is not OPEN in the stream, a COPY_RECT also
when its source band is not. The stream halts with RECORD_ERROR and the record's band; the band manager is not changed. -/
def Obligations.BandChecksHaltTheStream : Prop :=
  ∀ (s : State) (i : StreamId) (n : Nat) (bs : List Byte) (c : StreamCfg) (r : Ring),
    let fails (st : Status) : State := s.failed i n bs r st (some (le16 bs 2))
    (s.Good i n .openBand bs c r →
      (le16 bs 2 ≠ (s.stream i).nextOpen → exec .openBand s = .next (fails .bandNumber)) ∧
      (le16 bs 2 = (s.stream i).nextOpen → c.window ≤ s.openCount i → exec .openBand s = .next (fails .windowFull))) ∧
    (∀ k, k = .fillRect ∨ k = .place ∨ k = .copyRect ∨ k = .closeBand ∨ k = .discardBand → s.Good i n k bs c r →
      (∀ j b, s.slot j = some b → b.stream = i → b.band = le16 bs 2 → b.st ≠ .opened) →
      exec (kindRow k) s = .next (fails .bandNotOpen)) ∧
    (s.Good i n .copyRect bs c r →
      (∀ j b, s.slot j = some b → b.stream = i → b.band = le16 bs 22 → b.st ≠ .opened) →
      exec .copyRect s = .next (fails .bandNotOpen))

/-- R68: a record with a good verdict that names the skip band is consumed with SKIPPED and has no other effect; a CLOSE_BAND or
DISCARD_BAND ends the skip and always gets its entry, another kind when NOTIFY is set. A malformed record that names the skip band
halts the stream with BAD_FIELD, the skip band kept. -/
def Obligations.SkippedRecordsAreConsumed : Prop :=
  ∀ (s : State) (i : StreamId) (n : Nat) (k : RecKind) (bs : List Byte) (c : StreamCfg) (r : Ring) (band : Band),
    RecKind.ofCode (byteAt bs 0) = some k → k ≠ .mark → (s.stream i).skip = some band →
    le16 bs 2 = band ∨ (k = .copyRect ∧ le16 bs 22 = band) →
    let entry : Entry := handedEntry i n bs r .skipped ((le16 bs 2).setWidth 32)
    (s.Chosen i n bs .good c r →
      (k = .closeBand ∨ k = .discardBand →
        exec (kindRow k) s = .next ((s.handed i r { s.stream i with skip := none }).holding i entry)) ∧
      (k ≠ .closeBand → k ≠ .discardBand →
        ((byteAt bs 1).getLsbD 0 = true → exec (kindRow k) s = .next ((s.handed i r (s.stream i)).holding i entry)) ∧
        ((byteAt bs 1).getLsbD 0 = false → exec (kindRow k) s = .next (s.handed i r (s.stream i))))) ∧
    (s.Chosen i n bs .badField c r → ∃ t, exec (kindRow k) s = .next t ∧
      t = s.failed i n bs r .badField (some (le16 bs 2)) ∧ (t.stream i).skip = some band)

/-- R5, R8, R9, R54, R70, R79: an OPEN_BAND that passes its checks gives the lowest FREE slot to the band, OPEN with the
opening values and the first P pages of the free-page list, and advances next-open. With a fill value, the fill of the whole
band becomes the op in flight; without one, an entry is held if NOTIFY is set. -/
def Obligations.OpenBandTakesSlotAndPages : Prop :=
  ∀ (s : State) (i : StreamId) (n : Nat) (bs : List Byte) (c : StreamCfg) (r : Ring) (k : SlotId),
    s.Good i n .openBand bs c r → le16 bs 2 = (s.stream i).nextOpen → s.openCount i < c.window →
    s.slot k = none → (∀ j, j < k → s.slot j ≠ none) →
    let pages : Nat := (c.width * c.depth / 8 * c.height + 32767) / 32768
    let t : State :=
      { s.handed i r { s.stream i with nextOpen := (s.stream i).nextOpen + 1 } with
        bands := { s.bands with
          free := s.bands.free.drop pages
          slots := putAt s.bands.slots k
            (some { st := .opened, stream := i, band := le16 bs 2, pages := s.bands.free.take pages, blank := false
                    damaged := false, autoClosed := false, notify := false, tag := none }) } }
    (byteAt bs 8 ≠ 1#8 → (byteAt bs 1).getLsbD 0 = false → exec .openBand s = .next t) ∧
    (byteAt bs 8 ≠ 1#8 → (byteAt bs 1).getLsbD 0 = true →
      exec .openBand s = .next (t.holding i (handedEntry i n bs r .ok ((le16 bs 2).setWidth 32)))) ∧
    (byteAt bs 8 = 1#8 → 1 ≤ c.width → 1 ≤ c.height →
      let op : Op := handedOp i n bs c r (.initialFill ((byteAt bs 9).setWidth 2)) k
        { c0 := 0, c1 := c.width, r0 := 0, r1 := c.height }
      exec .openBand s = .next { t with raster := .executing op })

/-- R70, R76, R80, R82, R83, R86: a drawing record whose bands are OPEN is consumed and becomes the op in flight; with an
empty area it ends at once, its entry, if NOTIFY is set, with EMPTY. A PLACE asks for the bytes of its first visible source
row, in pieces of at most 256 bytes, and counts those that are issued; the others are counted as they are. As R168 says, the
pieces of a range are asked for in address order, piece k for the bytes from 256 × k on, issued under the read limit or left
to wait. The combine mode of a record is REPLACE, OR, CLEAR or XOR for the codes 0 to 3 of its byte 21. -/
def Obligations.DrawingRecordsBecomeTheOp : Prop :=
  (∀ bs : List Byte,
    (byteAt bs 21 = 0#8 → recCombine bs = .replace) ∧ (byteAt bs 21 = 1#8 → recCombine bs = .or) ∧
    (byteAt bs 21 = 2#8 → recCombine bs = .clear) ∧ (byteAt bs 21 = 3#8 → recCombine bs = .xor)) ∧
  ∀ (s : State) (i : StreamId) (n : Nat) (bs : List Byte) (c : StreamCfg) (r : Ring) (k src : SlotId),
    s.openSlot i (le16 bs 2) = some k →
    let x : Int := s32 bs 8
    let y : Int := s32 bs 12
    let w : Nat := (le16 bs 16).toNat
    let h : Nat := (le16 bs 18).toNat
    let mode : Combine := recCombine bs
    let value : BitVec 2 := (byteAt bs 20).setWidth 2
    let rect : Area := clipRect x y w h c.width c.height
    let copied : Area := clipCopy (s32 bs 24) (s32 bs 28) x y w h c.width c.height
    let t : State := s.handed i r (s.stream i)
    let box : Rect := { x := x, y := y, w := w, h := h }
    let fill : Op := handedOp i n bs c r (.fillRect box value mode) k rect
    let copy : Op := handedOp i n bs c r (.copyRect src box (s32 bs 24) (s32 bs 28) mode) k copied
    let ds : Nat := (byteAt bs 22).toNat
    let put : Op := handedOp i n bs c r (.place box (le64 bs 32) (le16 bs 24).toNat ds value mode) k rect
    let first : Nat := ((rect.c0 : Int) - x).toNat * ds / 8
    let len : Nat := (((rect.c1 : Int) - x).toNat * ds - 1) / 8 - first + 1
    let row : Nat := ((rect.r0 : Int) - y).toNat
    let ended (op : Op) : State :=
      let e : Entry := { handedEntry i n bs r .ok ((le16 bs 2).setWidth 32) with empty := true }
      if (byteAt bs 1).getLsbD 0 then State.admitAsMade .raster { t with raster := .posting op e } else { t with raster := .free }
    (s.Good i n .fillRect bs c r →
      exec .fillRect s = .next (if rect.isEmpty then ended fill else { t with raster := .executing fill })) ∧
    (s.Good i n .copyRect bs c r → s.openSlot i (le16 bs 22) = some src →
      exec .copyRect s = .next (if copied.isEmpty then ended copy else { t with raster := .executing copy })) ∧
    (s.Good i n .place bs c r →
      exec .place s = .next (if rect.isEmpty then ended put else
        { t with
          raster := .executing { put with
            readsOut := if s.port.busMaster && s.port.linkUp then (readPieces len).length else 0
            rowData := List.replicate len 0#8 }
          port := s.port.askRow (le64 bs 32 + BitVec.ofNat 64 (row * (le16 bs 24).toNat + first)) len })) ∧
    ∀ (p : Port) (addr : BitVec 64) (m : Nat),
      let count : Nat := (m + 255) / 256
      let start (j : Nat) : BitVec 64 := addr + BitVec.ofNat 64 (256 * j)
      let size (j : Nat) : Nat := if j + 1 = count then m - 256 * j else 256
      readPieces m = (List.range count).map (fun j => (256 * j, size j)) ∧ ((readPieces m).map Prod.snd).sum = m ∧
      (∀ c ∈ readPieces m, 1 ≤ c.2 ∧ c.2 ≤ 256) ∧
      (∀ limit, p.readLimit = some limit → (p.busMaster && p.linkUp) = true → p.askRow addr m = { p with
        nextId := p.nextId + count
        sent := p.sent ++ (List.range count).map fun j => .readRequest (p.nextId + j) (start j) (size j)
        outstanding := p.outstanding ++ (List.range count).map fun j =>
          { id := p.nextId + j, who := .raster (256 * j), addr := start j, len := size j, limit := limit
            got := List.replicate (size j) none, lost := false } }) ∧
      ((p.busMaster && p.linkUp) = false → p.askRow addr m = { p with
        waiting := p.waiting ++ (List.range count).map fun j => .read (.raster (256 * j)) (start j) (size j) })

/-- R79, R80, R86: a dot lies in the clipped area of a rectangle exactly when it lies in the rectangle and in the band; in
that of a copy, exactly when it lies in the band and its source dot lies in the source rectangle and in the band. An area is
empty exactly when no dot lies in it. -/
def Obligations.ClippedAreasHoldTheVisibleDots : Prop :=
  ∀ (x y sx sy : Int) (w h width height u v : Nat),
    let inside (a : Area) (p q : Nat) : Prop := (a.c0 ≤ p ∧ p < a.c1) ∧ a.r0 ≤ q ∧ q < a.r1
    (inside (clipRect x y w h width height) u v ↔
      (x ≤ u ∧ (u : Int) < x + w ∧ y ≤ v ∧ (v : Int) < y + h) ∧ u < width ∧ v < height) ∧
    (let su : Int := u - x + sx
     let sv : Int := v - y + sy
     inside (clipCopy sx sy x y w h width height) u v ↔
      (u < width ∧ v < height) ∧ (sx ≤ su ∧ su < sx + w ∧ sy ≤ sv ∧ sv < sy + h) ∧ 0 ≤ su ∧ su < width ∧ 0 ≤ sv ∧ sv < height) ∧
    ∀ a : Area, a.isEmpty = true ↔ ∀ p q, ¬inside a p q

/-- R10, R12, R70, R72: CLOSE_BAND makes the OPEN slot CLOSED with the record's tag and NOTIFY, its pages kept, and posts no
entry; DISCARD_BAND makes it CLOSED and blank, notify no and tag absent, its pages at the free-page list's tail, with an entry
if NOTIFY is set. The slot of an OPEN band, and a stream's SENDING slot, is the lowest that holds it; by the laws of R9 and
R13 it is the only one. -/
def Obligations.CloseAndDiscardEndTheBand : Prop :=
  (∀ (s : State) (i : StreamId) (m : Band) (k : SlotId),
    let opened (j : SlotId) : Prop := ∃ b, s.slot j = some b ∧ b.stream = i ∧ b.band = m ∧ b.st = .opened
    let sending (j : SlotId) : Prop := ∃ b, s.slot j = some b ∧ b.stream = i ∧ b.st = .sending
    (s.openSlot i m = some k ↔ opened k ∧ ∀ j, j < k → ¬opened j) ∧
    (s.sendingSlot i = some k ↔ sending k ∧ ∀ j, j < k → ¬sending j) ∧
    (s.UniqueLaw → (s.openSlot i m = some k ↔ opened k)) ∧
    (s.UniqueLaw → s.SendingLaw → (s.sendingSlot i = some k ↔ sending k))) ∧
  ∀ (s : State) (i : StreamId) (n : Nat) (bs : List Byte) (c : StreamCfg) (r : Ring) (k : SlotId) (b : BandSlot),
    s.openSlot i (le16 bs 2) = some k → s.slot k = some b →
    let t : State := s.handed i r (s.stream i)
    (s.Good i n .closeBand bs c r →
      let b' : BandSlot := { b with st := .closed, notify := (byteAt bs 1).getLsbD 0, tag := some (le32 bs 4) }
      exec .closeBand s = .next { t with bands := { s.bands with slots := putAt s.bands.slots k (some b') } }) ∧
    (s.Good i n .discardBand bs c r →
      let d : State := { t with bands := { s.bands with
        free := s.bands.free ++ b.pages
        slots := putAt s.bands.slots k
          (some { b with st := .closed, blank := true, notify := false, tag := none, pages := [] }) } }
      exec .discardBand s = .next
        (if (byteAt bs 1).getLsbD 0 then d.holding i (handedEntry i n bs r .ok ((le16 bs 2).setWidth 32)) else d))

/-- R24, R70, R73: a MARK of scope RENDERED, or of scope EMITTED while the stream has no live band, completes at its hand-over
with next-open − 1 as extra; another MARK of scope EMITTED joins the mark list's tail with that boundary and frees the raster
unit. -/
def Obligations.MarksCompleteOrJoinTheList : Prop :=
  ∀ (s : State) (i : StreamId) (n : Nat) (bs : List Byte) (c : StreamCfg) (r : Ring), s.Good i n .mark bs c r →
    (byteAt bs 8 = 0#8 ∨ (s.stream i).nextEmit = (s.stream i).nextOpen →
      exec .mark s = .next ((s.handed i r (s.stream i)).holding i
        (handedEntry i n bs r .ok (((s.stream i).nextOpen - 1).setWidth 32)))) ∧
    (byteAt bs 8 = 1#8 → (s.stream i).nextEmit ≠ (s.stream i).nextOpen →
      exec .mark s = .next (s.handed i r { s.stream i with marks := (s.stream i).marks ++
        [{ tag := le32 bs 4, index := n, head := (r.head + 1) % r.size, boundary := (s.stream i).nextOpen - 1
           st := .boundary }] }))

/-! ## The raster unit and the ring unit -/

/-- R78, R88, R91: ROW_WRITE makes one row write of an op that is not a PLACE. After the last line the op's work has ended:
with NOTIFY its OK entry is offered, without it the unit is FREE; for an ABORTING stream the unit is FREE in either case. The
lines are taken in ascending order, but in descending order by a COPY_RECT within one band with y − sy > 0. As R87 says, the
row writes of a COPY_RECT, all together, combine each dot of the area with the value its source dot held before the first of
them. -/
def Obligations.RowWritesEndTheOp : Prop :=
  (∀ op : Op,
    ((∃ box sx sy mode, op.kind = .copyRect op.slot box sx sy mode ∧ 0 < box.y - sy) →
      op.line = op.area.r1 - 1 - op.rowsDone) ∧
    ((∀ box sx sy mode, op.kind = .copyRect op.slot box sx sy mode → box.y - sy ≤ 0) →
      op.line = op.area.r0 + op.rowsDone)) ∧
  (∀ (op : Op) (b : Bands) (src : SlotId) (box : Rect) (sx sy : Int) (mode : Combine) (dest source : BandSlot),
    op.kind = .copyRect src box sx sy mode → Memory.wf b.mem → b.slots.get op.slot = some dest →
    b.slots.get src = some source → dest.pages.Nodup → (src ≠ op.slot → ∀ p ∈ dest.pages, p ∉ source.pages) →
    (op.depth = 1 ∨ op.depth = 2) → op.width % 32 = 0 →
    op.height * op.lineBytes ≤ dest.pages.length * Config.pageBytes →
    op.height * op.lineBytes ≤ source.pages.length * Config.pageBytes →
    op.area.isEmpty = false → op.area.c1 ≤ op.width → op.area.r1 ≤ op.height →
    let su (x : Nat) : Int := x - box.x + sx
    let sv (y : Nat) : Int := y - box.y + sy
    let inside (x y : Nat) : Prop := (op.area.c0 ≤ x ∧ x < op.area.c1) ∧ op.area.r0 ≤ y ∧ y < op.area.r1
    (∀ x y, inside x y → (0 ≤ su x ∧ su x < op.width) ∧ 0 ≤ sv y ∧ sv y < op.height) →
    let after : Bands := (List.range (op.area.r1 - op.area.r0)).foldl (fun a n => { op with rowsDone := n }.writeRow a) b
    ∀ x y, x < op.width → y < op.height →
      let old : BitVec 2 := bandDot b.mem dest.pages op.lineBytes op.depth x y
      (inside x y → bandDot after.mem dest.pages op.lineBytes op.depth x y =
        combine mode old (bandDot b.mem source.pages op.lineBytes op.depth (su x).toNat (sv y).toNat)) ∧
      (¬inside x y → bandDot after.mem dest.pages op.lineBytes op.depth x y = old)) ∧
  ∀ (s : State) (op : Op), s.port.part = .attached → s.raster = .executing op → op.kind.filled = true →
    op.area.isEmpty = false →
    let u : State := { s with bands := op.writeRow s.bands }
    let op' : Op := { op with rowsDone := op.rowsDone + 1 }
    let e : Entry :=
      { tag := op.tag, source := BitVec.ofNat 8 (op.stream.val + 1), kind := op.entryKind, status := .ok, empty := false
        index := BitVec.ofNat 16 op.index, head := BitVec.ofNat 16 op.entryHead, extra := op.band.setWidth 32 }
    (op.rowsDone + 1 < op.area.r1 - op.area.r0 → exec .rowWrite s = .next { u with raster := .executing op' }) ∧
    (op.area.r1 - op.area.r0 ≤ op.rowsDone + 1 →
      ((s.stream op.stream).st = .aborting ∨ op.notify = false → exec .rowWrite s = .next { u with raster := .free }) ∧
      ((s.stream op.stream).st ≠ .aborting → op.notify = true →
        exec .rowWrite s = .next (State.admitAsMade .raster { u with raster := .posting op' e })))

/-- R150, R151: into a free place of the queue ENTRY_ADMISSION admits one admissible offer, which joins the queue's tail, and
releases its producer; with the queue full, or no such offer, nothing changes (log 2). Lanes come first, round-robin, a lane
passed by while an entry of it is in the queue; then streams, round-robin, a stream passed by while its drain-end STOP waits,
as R132 says, behind the event its drain end found in the lane's latch; then the raster unit; then the admin unit, passed by
while such a STOP waits of the stream its command names, which goes first (log 18). As R25 and R39 say, an admitted mark
leaves its list and an admitted STOP is no longer owed; a due STOP goes before a due mark of a later run (log 25); the stream
then offers what it has next, and so on until one of its offers waits. An offer of any producer made with a free place and no
other admissible offer is admitted as it is made, and otherwise waits for ENTRY_ADMISSION; that one made while another
admissible offer stands waits so, and that an offer passed by does not hinder it, is the model's log 11. As R134, R146 and
R175 say, a lane offers the entry of the event in its latch: source 8 to 11, the event's kind, OK, EMPTY clear, index and head
0, BAND_SENT's tag, and as extra the band, for LANE_SYNCED 0xFFFFFFFF, for LANE_HALTED the band or 0xFFFF, the reason in bits
19 to 16, and bit 31 set where no band is named. -/
def Obligations.OffersAreAdmittedByCategory : Prop :=
  (∀ s : State, s.port.part = .attached →
    let ready (p : Producer) : Prop := s.offer p ≠ none ∧ s.admissible p = true
    (∀ i : StreamId,
      (s.admissible (.lane i) = true ↔ ∀ e ∈ s.ring.queue, e.source ≠ BitVec.ofNat 8 (8 + i.val)) ∧
      (s.admissible (.stream i) = false ↔ (s.lane i).latch ≠ none ∧ (s.lane i).beforeStop = true)) ∧
    (s.admissible .admin = false ↔
      ∃ e i, s.admin = .posting e (some i) ∧ (s.lane i).latch ≠ none ∧ (s.lane i).beforeStop = true) ∧
    (∀ n : Fin 4, s.chooseOffer = some (.lane (s.ring.laneNext + n)) ↔
      ready (.lane (s.ring.laneNext + n)) ∧ ∀ m : Fin 4, m < n → ¬ready (.lane (s.ring.laneNext + m))) ∧
    (∀ n : Fin 4, s.chooseOffer = some (.stream (s.ring.streamNext + n)) ↔
      (∀ i, ¬ready (.lane i)) ∧ ready (.stream (s.ring.streamNext + n)) ∧
        ∀ m : Fin 4, m < n → ¬ready (.stream (s.ring.streamNext + m))) ∧
    (s.chooseOffer = some .raster ↔
      (∀ i, ¬ready (.lane i)) ∧ (∀ i, ¬ready (.stream i)) ∧ s.raster.offer ≠ none) ∧
    (s.chooseOffer = some .admin ↔
      (∀ i, ¬ready (.lane i)) ∧ (∀ i, ¬ready (.stream i)) ∧ s.raster.offer = none ∧ ready .admin) ∧
    (16 ≤ s.ring.queue.length ∨ s.chooseOffer = none → exec .entryAdmission s = .next s) ∧
    (s.ring.queue.length < 16 → ∀ p, s.chooseOffer = some p →
      (∀ i, p = .stream i → exec .entryAdmission s = .next ((s.admitOffer p).offerStream i)) ∧
      ((∀ i, p ≠ .stream i) → exec .entryAdmission s = .next (s.admitOffer p))) ∧
    ∀ p,
      (s.ring.queue.length < 16 → ready p → (∀ q, ready q → q = p) → s.admitAsMade p = s.admitOffer p) ∧
      (16 ≤ s.ring.queue.length ∨ ¬ready p ∨ (∃ q, q ≠ p ∧ ready q) → s.admitAsMade p = s)) ∧
  ∀ (s : State) (i : StreamId),
    let joined (e : Entry) : RingUnit := { s.ring with queue := s.ring.queue ++ [e] }
    let takes (e : Entry) (x : Stream) : State :=
      { s.setStream i x with ring := { joined e with streamNext := i + 1 } }
    (let event (kind : Byte) (tag extra : BitVec 32) : Option Entry := some
      { tag := tag, source := BitVec.ofNat 8 (8 + i.val), kind := kind, status := .ok, empty := false, index := 0#16
        head := 0#16, extra := extra }
     ((s.lane i).latch = none → s.offer (.lane i) = none) ∧
     ((s.lane i).latch = some .synced → s.offer (.lane i) = event 0x22#8 0#32 0xFFFFFFFF#32) ∧
     (∀ reason, (s.lane i).latch = some (.halted reason none) →
       s.offer (.lane i) = event 0x23#8 0#32 (0x800#12 ++ reason ++ 0xFFFF#16)) ∧
     ∀ band : Band,
      (∀ tag, (s.lane i).latch = some (.bandSent tag band) → s.offer (.lane i) = event 0x20#8 tag (band.setWidth 32)) ∧
      ((s.lane i).latch = some (.starved band) → s.offer (.lane i) = event 0x21#8 0#32 (band.setWidth 32)) ∧
      ((s.lane i).latch = some (.lost band) → s.offer (.lane i) = event 0x24#8 0#32 (band.setWidth 32)) ∧
      ∀ reason, (s.lane i).latch = some (.halted reason (some band)) →
        s.offer (.lane i) = event 0x23#8 0#32 (0#12 ++ reason ++ band)) ∧
    (∀ e, s.offer (.lane i) = some e →
      let l : Lane := { s.lane i with latch := none, beforeStop := false }
      let stops : Prop := l.stopPending = true ∧ l.state ≠ .sending ∧ l.state ≠ .cancelling
      s.admitOffer (.lane i) =
        { s.setLane i (if stops then l.offline else l) with ring := { joined e with laneNext := i + 1 } }) ∧
    (∀ e, s.raster.offer = some e → s.admitOffer .raster = { s with raster := .free, ring := joined e }) ∧
    (∀ e x, s.admin = .posting e x → s.admitOffer .admin = { s with admin := .idle, ring := joined e }) ∧
    (∀ before m after, (∀ d, (s.stream i).dstop = some d → d.due = none) →
      (s.stream i).marks = before ++ m :: after → (∀ x ∈ before, x.st = .boundary) → m.st ≠ .boundary →
      s.admitOffer (.stream i) = takes
        { tag := m.tag, source := BitVec.ofNat 8 (i.val + 1), kind := 7#8
          status := if m.st = .dueAborted then .aborted else .ok, empty := false, index := BitVec.ofNat 16 m.index
          head := BitVec.ofNat 16 m.head, extra := m.boundary.setWidth 32 }
        { s.stream i with marks := before ++ after }) ∧
    (∀ d st n, (s.stream i).dstop = some d → d.due = some (st, n) →
      s.admitOffer (.stream i) = takes
        { tag := d.tag, source := 0#8, kind := 0x12#8, status := st, empty := false, index := BitVec.ofNat 16 d.index
          head := BitVec.ofNat 16 d.head, extra := n.setWidth 32 }
        { s.stream i with dstop := none }) ∧
    s.offerStream i = (s.admitAsMade (.stream i)).offerStream i ∧
    (s.admitAsMade (.stream i) = s → s.offerStream i = s)

/-- R147, R148, R153, R154, R170, R175: with room in the completion ring, COMPLETION_ENTRY_WRITE writes the entry at the
queue's head at base + 16 × write position with the current phase; the write position advances and the phase inverts at the
wrap. Coalescing counts the entry only while COMPLETION is clear: an urgent entry, or the one that reaches the count, sets it.
While bus mastering is off or the link down the write waits (log 8); without room nothing changes (log 2). The timer's expiry
sets COMPLETION. -/
def Obligations.EntriesAreWrittenAndCounted : Prop :=
  ∀ (s : State) (e : Entry) (q : List Entry) (c : CompRing) (k : Coalesce),
    s.ring.comp = some c → s.ring.coalesce = some k →
    let off : State := { s with ring := { s.ring with coalesce := some { k with counter := 0, timer := false } } }
    (k.timer = true → exec .coalesceTimerExpiry s = .next (off.raise .ofCompletion)) ∧
    (k.timer = false → exec .coalesceTimerExpiry s = .next s) ∧
    (s.port.part = .attached → s.ring.queue = e :: q → (c.write + 1) % c.size = c.release →
      exec .completionEntryWrite s = .next s) ∧
    (s.port.part = .attached → s.ring.queue = e :: q → (c.write + 1) % c.size ≠ c.release → .entry ∉ s.port.waiting →
      (s.port.busMaster = false ∨ s.port.linkUp = false → exec .completionEntryWrite s =
        .next { s with port := { s.port with waiting := s.port.waiting ++ [.entry] } }) ∧
      (s.port.busMaster = true → s.port.linkUp = true →
        let w : Nat := (c.write + 1) % c.size
        let status : Byte := match e.status with
          | .ok => 0#8
          | .skipped => 1#8
          | .badKind => 2#8
          | .badField => 3#8
          | .bandNumber => 4#8
          | .windowFull => 5#8
          | .bandNotOpen => 6#8
          | .ringFault => 7#8
          | .sourceFault => 8#8
          | .aborted => 9#8
          | .state => 10#8
          | .badStream => 11#8
          | .quotaSmall => 12#8
          | .poolOvercommit => 13#8
        let bytes : List Byte := leBytes 4 e.tag.toNat ++
          [e.source, e.kind, status, BitVec.ofNat 8 (c.phase.toNat + 2 * e.empty.toNat)] ++
          leBytes 2 e.index.toNat ++ leBytes 2 e.head.toNat ++ leBytes 4 e.extra.toNat
        let written (k' : Coalesce) : State := { s with
          ring := { s.ring with
            queue := q, comp := some { c with write := w, phase := if w = 0 then !c.phase else c.phase }
            coalesce := some k' }
          port := { s.port with sent := s.port.sent ++ [.write (c.base + BitVec.ofNat 64 (16 * c.write)) bytes] } }
        let urgent : Prop := (e.status ≠ .ok ∧ e.status ≠ .skipped) ∨ e.kind = 0x23#8 ∨ e.kind = 0x24#8
        (s.port.cause.completion = true → exec .completionEntryWrite s = .next (written k)) ∧
        (s.port.cause.completion = false → urgent ∨ k.counter + 1 = k.count →
          exec .completionEntryWrite s = .next ((written { k with counter := 0, timer := false }).raise .ofCompletion)) ∧
        (s.port.cause.completion = false → ¬urgent → k.counter + 1 ≠ k.count →
          exec .completionEntryWrite s = .next (written { k with
            counter := k.counter + 1, timer := k.timer || (k.counter == 0 && k.time != 0) }))))

/-! ## Stream control's own steps -/

/-- R11, R38, R39, R111: DRAIN_AUTO_CLOSE closes every OPEN slot of a DRAINING stream found input-quiet (CLOSED, auto_closed,
no notify, no tag) and nothing else. DRAIN_END, for a DRAINING stream that is input-quiet, holds no slot and no mark and has
its lane IDLE or SYNCING, makes the stream READY, its STOP due with OK and next-emit, the skip band absent and the lane
OFFLINE, and offers the STOP, behind the event in the lane's latch if there is one, as R132 says (log 18); without all of these it
changes nothing (log 2). -/
def Obligations.DrainsCloseAndEnd : Prop :=
  ∀ (s : State) (i : StreamId),
    let quiet : Prop := (∃ g, (s.stream i).ring = some g ∧ g.head = g.tail) ∧ (s.stream i).latch = .empty ∧
      s.raster.stream ≠ some i
    let ends : Prop := s.port.part = .attached ∧ (s.stream i).st = .draining ∧ quiet ∧
      (∀ k b, s.slot k = some b → b.stream ≠ i) ∧ (s.stream i).marks = [] ∧
      ((s.lane i).state = .idle ∨ (s.lane i).state = .syncing)
    (s.port.part = .attached → (s.stream i).st = .draining → quiet → ∃ t, exec (.drainAutoClose i) s = .next t ∧
      t = { s with bands := t.bands } ∧ t.bands.free = s.bands.free ∧ t.bands.mem = s.bands.mem ∧
      ∀ k, t.slot k = (s.slot k).map fun b =>
        if b.stream = i ∧ b.st = .opened then { b with st := .closed, autoClosed := true, notify := false, tag := none }
        else b) ∧
    (s.port.part ≠ .attached ∨ (s.stream i).st ≠ .draining ∨ ¬quiet → exec (.drainAutoClose i) s = .next s) ∧
    (ends → exec (.drainEnd i) s = .next (State.offerStream i ((s.setStream i
      { s.stream i with
        st := .ready, ret := none, skip := none
        dstop := (s.stream i).dstop.map fun d => { d with due := some (.ok, (s.stream i).nextEmit) } }).setLane i
      { (s.lane i).offline with beforeStop := (s.lane i).latch.isSome }))) ∧
    (¬ends → exec (.drainEnd i) s = .next s)

/-- R17, R26, R48, R49, R50, R141: the abort's waits, one for each ABORT_STEP. Step 2: while no op of the stream is in flight,
the lane takes a stop order: a lane that is neither SENDING nor CANCELLING enters OFFLINE, if its latch is empty, as R129 and
R130 say, and another keeps the order pending. Step 3: with the lane OFFLINE, every slot of the stream is FREE, its pages
returned band by band in ascending distance from next-emit (R7), and each mark not yet due is due ABORTED. Step 5: with the
mark list empty, a deferred STOP is due ABORTED with next-emit. Step 6: with the STOP admitted, the ABORT is due. Each offers
what it made due; until what it waits for has come, the step changes nothing (log 2). Step 7: the admission of the due ABORT
sets the ring head to the tail, makes the stream READY with no skip band, no halt information and no deferred ABORT, and its
entry carries the number of records discarded. -/
def Obligations.AbortStepsPassTheirWaits : Prop :=
  (∀ (s : State) (i : StreamId), s.port.part = .attached → (s.stream i).st = .aborting →
    ((s.stream i).abortAt = some .op →
      (s.raster.stream = some i → exec (.abortStep i) s = .next s) ∧
      (s.raster.stream ≠ some i → exec (.abortStep i) s =
        .next ((s.setStream i { s.stream i with abortAt := some .lane }).setLane i
          (if (s.lane i).state = .offline then s.lane i
           else if (s.lane i).latch = none ∧ (s.lane i).state ≠ .sending ∧ (s.lane i).state ≠ .cancelling then
             (s.lane i).offline
           else { s.lane i with stopPending := true })))) ∧
    ((s.stream i).abortAt = some .lane →
      ((s.lane i).state ≠ .offline → exec (.abortStep i) s = .next s) ∧
      ((s.lane i).state = .offline → ∃ t : State, exec (.abortStep i) s = .next (t.offerStream i) ∧
        t = { s.setStream i
          { s.stream i with
            abortAt := some .marks
            marks := (s.stream i).marks.map fun m => { m with st := if m.st = .boundary then .dueAborted else m.st } } with
          bands := t.bands } ∧
        (∀ k, t.slot k = (s.slot k).filter fun b => b.stream != i) ∧ t.bands.mem = s.bands.mem ∧
        ∃ ks : List SlotId, ks.Nodup ∧ (∀ k, k ∈ ks ↔ ∃ b, s.slot k = some b ∧ b.stream = i) ∧
          ks.Pairwise (fun j k => ∀ b b', s.slot j = some b → s.slot k = some b' →
            bandDist b.band (s.stream i).nextEmit ≤ bandDist b'.band (s.stream i).nextEmit) ∧
          t.bands.free = s.bands.free ++ ks.flatMap fun k => (s.slot k).elim [] BandSlot.pages)) ∧
    ((s.stream i).abortAt = some .marks →
      ((s.stream i).marks ≠ [] → exec (.abortStep i) s = .next s) ∧
      ((s.stream i).marks = [] → exec (.abortStep i) s = .next (State.offerStream i (s.setStream i
        { s.stream i with
          abortAt := some .stop
          dstop := (s.stream i).dstop.map fun d =>
            { d with due := d.due.or (some (.aborted, (s.stream i).nextEmit)) } })))) ∧
    ((s.stream i).abortAt = some .stop →
      ((s.stream i).dstop ≠ none → exec (.abortStep i) s = .next s) ∧
      ((s.stream i).dstop = none → exec (.abortStep i) s = .next (State.offerStream i (s.setStream i
        { s.stream i with
          abortAt := some .abort, dabort := (s.stream i).dabort.map fun d => { d with due := true } })))) ∧
    ((s.stream i).abortAt = some .abort → exec (.abortStep i) s = .next s)) ∧
  ∀ (s : State) (i : StreamId) (d : DeferredAbort) (g : Ring),
    (∀ m ∈ (s.stream i).marks, m.st = .boundary) → (∀ x, (s.stream i).dstop = some x → x.due = none) →
    (s.stream i).dabort = some d → d.due = true → (s.stream i).ring = some g →
    s.admitOffer (.stream i) =
      { s.setStream i { s.stream i with
          st := .ready, skip := none, halt := none, dabort := none, abortAt := none
          ring := some { g with head := g.tail } } with
        ring := { s.ring with
          streamNext := i + 1
          queue := s.ring.queue ++ [{ tag := d.tag, source := 0#8, kind := 0x13#8, status := .ok, empty := false
                                      index := BitVec.ofNat 16 d.index, head := BitVec.ofNat 16 d.head
                                      extra := BitVec.ofNat 32 ((g.tail + g.size - g.head) % g.size) }] } }

/-! ## The lanes -/

/-- R106, R112, R113: a SYNCING lane with an empty latch, no frame and no stop order sends the SYNC of its working chunk size
with seq 0. An IDLE lane with credit, an empty latch and no stop order, whose stream emits, starts the band at next-emit when
its slot is CLOSED, or SENDING after a resync: the slot is SENDING, the lane in phase HEADER, and the HEADER is sent with the
geometry and the slot's flags. -/
def Obligations.LanesStartSyncAndBands : Prop :=
  ∀ (s : State) (i : StreamId) (p : LaneParams) (c : StreamCfg) (k : SlotId) (b : BandSlot),
    s.port.part = .attached → (s.lane i).params = some p → (s.lane i).latch = none → (s.lane i).stopPending = false →
    ((s.lane i).state = .syncing → (s.lane i).out = none →
      exec (.syncSend i) s = .next (s.setLane i ((s.lane i).sending s.bands i (.sync p.chunkSize) 0#2))) ∧
    ((s.lane i).state = .idle → 1 ≤ (s.lane i).credit → (s.stream i).emits = true → (s.stream i).cfg = some c →
      (s.findSlot fun x => x.stream == i && x.band == (s.stream i).nextEmit && (x.st == .closed || x.st == .sending)) = some k →
      s.slot k = some b →
      let bytes : Nat := c.width * c.depth / 8 * c.height
      let chunks : Nat := if b.blank then 0 else (bytes + (p.chunkSize - 1)) / p.chunkSize
      let bands : Bands := { s.bands with slots := putAt s.bands.slots k (some { b with st := .sending }) }
      exec (.bandStart i) s = .next { s.setLane i (Lane.sending bands i
          (.header b.band c.height (c.width * c.depth / 8) c.depth b.blank b.damaged b.autoClosed bytes) (s.lane i).seq
          { s.lane i with
            state := .sending
            progress := some { band := b.band, slot := k, phase := .header, count := chunks, next := 0 } }) with
        bands := bands })

/-- R114, with R99, R101, R108, R115, R116, R117, R131: an ACCEPT taken ends the exchange, its counts 0 and the sequence
number one further. SYNC: the lane is IDLE with seq 1 and credit 0 and posts LANE_SYNCED. HEADER: one credit less; CHUNK 0
follows, or a TRAILER of 0 and 0 for a blank band. CHUNK: the next, or after the last the TRAILER with the count and the
CRC-32 of the band. CANCEL: OFFLINE. Under a stop order, HEADER and CHUNK are followed by CANCEL for the band. That the sending
progress holds the index of the chunk outstanding, and the count at the TRAILER, is the model's log 23. -/
def Obligations.AcceptsAdvanceTheBand : Prop :=
  ∀ (s : State) (i : StreamId) (st : LaneState) (o : Outstanding) (c : StreamCfg) (p : LaneParams) (g : Progress),
    s.Exchange i st o → (s.stream i).cfg = some c →
    let l : Lane := { (s.lane i).quiet with resendCount := 0, waitCount := 0, seq := (s.lane i).seq + 1 }
    let bytes : Nat := c.width * c.depth / 8 * c.height
    let chunk (x : Lane) (k : Nat) : State := s.setLane i (Lane.sending s.bands i
      (.chunk k (if k + 1 = g.count then bytes - p.chunkSize * (g.count - 1) else p.chunkSize)) x.seq
      { x with progress := some { g with phase := .chunks, next := k } })
    let trailer (x : Lane) (n : Nat) (crc : BitVec 32) : State := s.setLane i (Lane.sending s.bands i (.trailer n crc) x.seq
      { x with progress := some { g with phase := .trailer, next := n } })
    let cancel (x : Lane) : State := s.setLane i (Lane.sending s.bands i (.cancel g.band) x.seq
      { x with state := .cancelling, progress := none })
    let spent : Lane := { l with credit := (s.lane i).credit - 1 }
    (∀ n, o.frame = .sync n → s.port.part ≠ .detaching → (s.lane i).stopPending = false →
      exec (.accept i o.seq) s = .next (State.admitAsMade (.lane i) (s.setLane i
        { l with state := .idle, seq := 1#2, credit := 0, latch := some .synced }))) ∧
    (∀ n, o.frame = .cancel n → exec (.accept i o.seq) s = .next (s.setLane i (s.lane i).offline)) ∧
    ((s.lane i).params = some p → (s.lane i).progress = some g →
      (∀ a1 a2 a3 a4 blank a6 a7 a8, o.frame = .header a1 a2 a3 a4 blank a6 a7 a8 →
        ((s.lane i).stopPending = true → exec (.accept i o.seq) s = .next (cancel spent)) ∧
        ((s.lane i).stopPending = false → blank = false → exec (.accept i o.seq) s = .next (chunk spent 0)) ∧
        ((s.lane i).stopPending = false → blank = true → g.count = 0 →
          exec (.accept i o.seq) s = .next (trailer spent 0 0#32))) ∧
      ∀ k len, o.frame = .chunk k len →
        ((s.lane i).stopPending = true → exec (.accept i o.seq) s = .next (cancel l)) ∧
        ((s.lane i).stopPending = false → k + 1 < g.count → exec (.accept i o.seq) s = .next (chunk l (k + 1))) ∧
        ((s.lane i).stopPending = false → g.count ≤ k + 1 → g.count ≠ 0 →
          exec (.accept i o.seq) s = .next (trailer l g.count
            (crc32 (bandRange s.bands.mem ((s.slot g.slot).elim [] BandSlot.pages) 0 bytes)))))

/-- R14, R21, R25, R118, R130: the ACCEPT of a TRAILER frees the SENDING slot, its pages at the free-page list's tail,
advances next-emit, makes due and offers the marks whose boundary has passed, then posts BAND_SENT with the slot's tag if
notify is yes, in an abort too (log 17). The lane becomes IDLE without progress; under a stop order it then enters OFFLINE as
soon as its latch is empty (log 12). -/
def Obligations.AcceptedTrailersReleaseTheBand : Prop :=
  ∀ (s : State) (i : StreamId) (o : Outstanding) (n : Nat) (crc : BitVec 32) (k : SlotId) (b : BandSlot),
    s.Exchange i .sending o → o.frame = .trailer n crc → s.sendingSlot i = some k → s.slot k = some b →
    let taken : State :=
      s.setLane i { (s.lane i).quiet with resendCount := 0, waitCount := 0, seq := (s.lane i).seq + 1 }
    let left : State :=
      { taken.setStream i
          { s.stream i with
            nextEmit := (s.stream i).nextEmit + 1, marks := makeDue ((s.stream i).nextEmit + 1) (s.stream i).marks } with
        bands := { s.bands with free := s.bands.free ++ b.pages, slots := putAt s.bands.slots k none } }
    let posts (x : State) : State :=
      if b.notify ∧ s.port.part ≠ .detaching then State.admitAsMade (.lane i) (x.setLane i
        { x.lane i with latch := some (.bandSent (b.tag.getD 0#32) b.band) })
      else x
    let rests (x : State) : Host.Outcome State Fault Refusal :=
      .next ((x.mapLane i fun l => { l with state := .idle, progress := none }).settleLane i)
    exec (.accept i o.seq) s = rests (posts (left.offerStream i))

/-- R103, R104, R107, R124, R125, R129, R131, R138: a WAIT taken pauses the frame and counts, but a SYNC's is not counted;
beyond the wait limit the lane is LOST, or OFFLINE for a CANCEL. A REFUSE taken makes the lane HALTED, or OFFLINE for a
CANCEL. LOST and HALTED post their event, with the band of the progress, and none for a refused SYNC; in DETACHING the event
is discarded, and under a stop order the lane then enters OFFLINE as soon as its latch is empty. -/
def Obligations.WaitsPauseAndRefusesHalt : Prop :=
  ∀ (s : State) (i : StreamId) (st : LaneState) (o : Outstanding) (p : LaneParams) (g : Progress) (reason : BitVec 4),
    s.Exchange i st o → (s.lane i).params = some p →
    let l : Lane := (s.lane i).quiet
    let count : Nat := (s.lane i).waitCount + 1
    let posts (x : Lane) (ev : LaneEvent) : State := State.settleLane i
      (if s.port.part = .detaching then s.setLane i x
       else State.admitAsMade (.lane i) (s.setLane i { x with latch := some ev }))
    let paused : Option Outstanding := some { o with paused := true, timer := false }
    (∀ n, o.frame = .sync n →
      exec (.wait i o.seq) s = .next (s.setLane i { l with out := paused }) ∧
      exec (.refuse i o.seq reason) s = .next (posts { l with state := .halted, progress := none } (.halted reason none))) ∧
    (o.frame.isSync = false → count ≤ p.waitLimit →
      exec (.wait i o.seq) s = .next (s.setLane i { l with out := paused, waitCount := count })) ∧
    (∀ n, o.frame = .cancel n →
      (p.waitLimit < count → exec (.wait i o.seq) s = .next (s.setLane i (s.lane i).offline)) ∧
      exec (.refuse i o.seq reason) s = .next (s.setLane i (s.lane i).offline)) ∧
    ((∀ n, o.frame ≠ .cancel n) → o.frame.isSync = false → (s.lane i).progress = some g →
      (p.waitLimit < count → exec (.wait i o.seq) s =
        .next (posts { l with state := .lost, progress := none, waitCount := count } (.lost g.band))) ∧
      exec (.refuse i o.seq reason) s =
        .next (posts { l with state := .halted, progress := none } (.halted reason (some g.band))))

/-- R97, R100, R109, R136, R137: a reply whose seq is not that of an outstanding frame is stale, and so is a CREDIT in OFFLINE
or SYNCING: only the stale counter rises. Another CREDIT raises credit, to 15 at most. A bad frame raises the bad-frame
counter alone; bytes that are a good frame are taken as that frame. No counter rises above 65535, or at all while the stream
is UNCONFIGURED; that the counters of a configured stream go on rising in FATAL too is the model's log 20. -/
def Obligations.CreditsAndStrayFrames : Prop :=
  ∀ (s : State) (i : StreamId) (seq : Seq) (reason : BitVec 4) (grant : Byte) (bytes : List Byte),
    let off : Bool := (s.stream i).st == .unconfigured
    let stale : State := if off then s else s.setLane i { s.lane i with stale := min ((s.lane i).stale + 1) 65535 }
    let bad : State := if off then s else s.setLane i { s.lane i with bad := min ((s.lane i).bad + 1) 65535 }
    ((∀ o, (s.lane i).out = some o → o.begun = true → o.seq ≠ seq) →
      exec (.accept i seq) s = .next stale ∧ exec (.wait i seq) s = .next stale ∧
      exec (.refuse i seq reason) s = .next stale) ∧
    (grant ≠ 0#8 →
      ((s.lane i).state = .offline ∨ (s.lane i).state = .syncing → exec (.credit i grant) s = .next stale) ∧
      ((s.lane i).state ≠ .offline → (s.lane i).state ≠ .syncing → exec (.credit i grant) s =
        .next (s.setLane i { s.lane i with credit := min ((s.lane i).credit + grant.toNat) 15 }))) ∧
    exec (.credit i 0#8) s = .next bad ∧
    (parseHead bytes = none → exec (.badFrame i bytes) s = .next bad) ∧
    (parseHead bytes = some (.accept seq) → exec (.badFrame i bytes) s = exec (.accept i seq) s) ∧
    (parseHead bytes = some (.wait seq) → exec (.badFrame i bytes) s = exec (.wait i seq) s) ∧
    (parseHead bytes = some (.refuse seq reason) → exec (.badFrame i bytes) s = exec (.refuse i seq reason) s) ∧
    (parseHead bytes = some (.credit grant) → exec (.badFrame i bytes) s = exec (.credit i grant) s)

/-- R94, R101, R102, R103, R107, R122, R130, R131: the end of a transmission starts the reply timer, or begins the frame that
waits (log 15). The reply timer's expiry sends the frame again and counts it; beyond the resend limit the lane is LOST, or
OFFLINE for a CANCEL; a SYNC is not counted against the limit; a SENDING lane under a stop order gives the frame up and sends
CANCEL under the next seq. The wait timer's expiry sends the frame again without counting. As R121 says, the starve timer is
armed exactly while the lane is IDLE with credit, its stream emits, the band at next-emit is not CLOSED or SENDING, the starve
limit is not 0, the band is not the starved one and the latch is empty; its expiry posts STARVED for next-emit, and it is not
armed again for that band. -/
def Obligations.TimersRepeatOrGiveUp : Prop :=
  ∀ (s : State) (i : StreamId) (o : Outstanding) (t : Transmission) (p : LaneParams) (g : Progress),
    let l : Lane := s.lane i
    let again (x : Lane) : Lane :=
      let o' : Outstanding := { o with begun := true, paused := false, timer := false }
      { x with out := some o', tx := some { bytes := frameBytes s.bands i x o', counts := true }, txWaiting := false }
    let counted (x : Lane) : Lane :=
      if (s.stream i).st = .unconfigured then x else { x with resent := min (x.resent + 1) 65535 }
    (l.tx = some t → l.txWaiting = false → l.out = some o → t.counts = true →
      exec (.frameSent i) s = .next (s.setLane i { l with tx := none, out := some { o with timer := true } })) ∧
    (l.tx = some t → l.txWaiting = false → t.counts = false →
      exec (.frameSent i) s = .next (s.setLane i { l with tx := none })) ∧
    (l.tx = some t → l.txWaiting = true → l.out = some o →
      exec (.frameSent i) s = .next (s.setLane i (again l))) ∧
    (l.out = some o → o.begun = true → o.paused = true → l.tx = none →
      exec (.waitTimerExpiry i) s = .next (s.setLane i (again l))) ∧
    (l.out = some o → o.begun = true → o.paused = false → o.timer = true → l.tx = none → l.params = some p →
      (o.frame.isSync = true → exec (.replyTimerExpiry i) s = .next (s.setLane i (counted (again l)))) ∧
      (o.frame.isSync = false → l.state = .sending ∧ l.stopPending = true → l.progress = some g →
        exec (.replyTimerExpiry i) s = .next (s.setLane i (Lane.sending s.bands i (.cancel g.band) (l.seq + 1)
          { l.quiet with state := .cancelling, progress := none, resendCount := 0, waitCount := 0, seq := l.seq + 1 }))) ∧
      (o.frame.isSync = false → l.state ≠ .sending ∨ l.stopPending = false → l.resendCount + 1 ≤ p.resendLimit →
        exec (.replyTimerExpiry i) s =
          .next (s.setLane i (counted (again { l with resendCount := l.resendCount + 1 })))) ∧
      (p.resendLimit < l.resendCount + 1 →
        (∀ n, o.frame = .cancel n → l.state = .cancelling →
          exec (.replyTimerExpiry i) s = .next (s.setLane i l.offline)) ∧
        (o.frame.isSync = false → (∀ n, o.frame ≠ .cancel n) → l.stopPending = false → s.port.part ≠ .detaching →
          l.progress = some g →
          exec (.replyTimerExpiry i) s = .next (State.admitAsMade (.lane i) (s.setLane i
            { l.quiet with
              state := .lost, progress := none, resendCount := l.resendCount + 1, latch := some (.lost g.band) }))))) ∧
    (s.starveArmed i = true ↔
      (l.state = .idle ∧ 1 ≤ l.credit) ∧
      ((s.stream i).st = .running ∨ (s.stream i).st = .draining ∨ (s.stream i).st = .halted) ∧
      (∀ k b, s.slot k = some b → b.stream = i → b.band = (s.stream i).nextEmit → b.st ≠ .closed ∧ b.st ≠ .sending) ∧
      (∃ q, l.params = some q ∧ q.starveLimit ≠ 0) ∧ l.starved ≠ some (s.stream i).nextEmit ∧ l.latch = none) ∧
    (s.starveArmed i = false → exec (.starveTimerExpiry i) s = .next s) ∧
    (s.starveArmed i = true → s.port.part ≠ .detaching →
      let u : State := State.admitAsMade (.lane i) (s.setLane i
        { l with starved := some (s.stream i).nextEmit, latch := some (.starved (s.stream i).nextEmit) })
      exec (.starveTimerExpiry i) s = .next u ∧ u.starveArmed i = false ∧
        (l.stopPending = false → (u.lane i).starved = some (s.stream i).nextEmit))
end

