-- ==== Sys2Proof/Laws/State.lean ====
section
/-!
SUPPORT. What each basic update does to each field of the state: one lemma per field per update, so that no later proof
unfolds an update.
-/

namespace Sys2Proof

/-! ## A table's place -/

@[simp] theorem putAt_get_same {α : Type} {n : Nat} (v : Vector α n) (i : Fin n) (x : α) : (putAt v i x).get i = x := by
  simp [putAt, Vector.get_eq_getElem]

theorem putAt_get_ne {α : Type} {n : Nat} (v : Vector α n) {i j : Fin n} (x : α) (h : j ≠ i) :
    (putAt v i x).get j = v.get j := by
  have h' : i.val ≠ j.val := fun e => h (Fin.ext e.symm)
  simp [putAt, Vector.get_eq_getElem, h']

theorem putAt_get {α : Type} {n : Nat} (v : Vector α n) (i j : Fin n) (x : α) :
    (putAt v i x).get j = if j = i then x else v.get j := by
  by_cases h : j = i
  · subst h; simp
  · simp [h, putAt_get_ne v x h]

@[simp] theorem putAt_putAt {α : Type} {n : Nat} (v : Vector α n) (i : Fin n) (x y : α) :
    putAt (putAt v i x) i y = putAt v i y := by
  simp [putAt]

@[simp] theorem putAt_self {α : Type} {n : Nat} (v : Vector α n) (i : Fin n) : putAt v i (v.get i) = v := by
  simp [putAt, Vector.get_eq_getElem]

@[simp] theorem get_replicate {α : Type} {n : Nat} (x : α) (i : Fin n) : (Vector.replicate n x).get i = x := by
  simp [Vector.get_eq_getElem]

@[simp] theorem get_map {α β : Type} {n : Nat} (v : Vector α n) (f : α → β) (i : Fin n) :
    (v.map f).get i = f (v.get i) := by
  simp [Vector.get_eq_getElem]

namespace Machine

/-! ## Streams -/

theorem State.stream_mapStream (i j : StreamId) (f : Stream → Stream) (s : State) :
    (s.mapStream i f).stream j = if j = i then f (s.stream i) else s.stream j := by
  simp [State.stream, State.mapStream, putAt_get]

@[simp] theorem State.stream_mapStream_same (i : StreamId) (f : Stream → Stream) (s : State) :
    (s.mapStream i f).stream i = f (s.stream i) := by
  simp [State.stream_mapStream]

@[simp] theorem State.stream_mapStream_ne {i j : StreamId} (f : Stream → Stream) (s : State) (h : j ≠ i) :
    (s.mapStream i f).stream j = s.stream j := by
  simp [State.stream_mapStream, h]

theorem State.stream_setStream (i j : StreamId) (x : Stream) (s : State) :
    (s.setStream i x).stream j = if j = i then x else s.stream j := by
  simp [State.stream, State.setStream, putAt_get]

theorem State.mapStream_eq_setStream (i : StreamId) (f : Stream → Stream) (s : State) :
    s.mapStream i f = s.setStream i (f (s.stream i)) := rfl

@[simp] theorem State.mapStream_port (i : StreamId) (f : Stream → Stream) (s : State) :
    (s.mapStream i f).port = s.port := rfl
@[simp] theorem State.mapStream_ring (i : StreamId) (f : Stream → Stream) (s : State) :
    (s.mapStream i f).ring = s.ring := rfl
@[simp] theorem State.mapStream_admin (i : StreamId) (f : Stream → Stream) (s : State) :
    (s.mapStream i f).admin = s.admin := rfl
@[simp] theorem State.mapStream_intake (i : StreamId) (f : Stream → Stream) (s : State) :
    (s.mapStream i f).intake = s.intake := rfl
@[simp] theorem State.mapStream_raster (i : StreamId) (f : Stream → Stream) (s : State) :
    (s.mapStream i f).raster = s.raster := rfl
@[simp] theorem State.mapStream_bands (i : StreamId) (f : Stream → Stream) (s : State) :
    (s.mapStream i f).bands = s.bands := rfl
@[simp] theorem State.mapStream_lanes (i : StreamId) (f : Stream → Stream) (s : State) :
    (s.mapStream i f).lanes = s.lanes := rfl
@[simp] theorem State.mapStream_pending (i : StreamId) (f : Stream → Stream) (s : State) :
    (s.mapStream i f).pending = s.pending := rfl
@[simp] theorem State.mapStream_lane (i j : StreamId) (f : Stream → Stream) (s : State) :
    (s.mapStream i f).lane j = s.lane j := rfl
@[simp] theorem State.mapStream_slot (i : StreamId) (f : Stream → Stream) (s : State) (k : SlotId) :
    (s.mapStream i f).slot k = s.slot k := rfl

/-! ## Lanes -/

theorem State.lane_mapLane (i j : StreamId) (f : Lane → Lane) (s : State) :
    (s.mapLane i f).lane j = if j = i then f (s.lane i) else s.lane j := by
  simp [State.lane, State.mapLane, putAt_get]

@[simp] theorem State.lane_mapLane_same (i : StreamId) (f : Lane → Lane) (s : State) :
    (s.mapLane i f).lane i = f (s.lane i) := by
  simp [State.lane_mapLane]

@[simp] theorem State.lane_mapLane_ne {i j : StreamId} (f : Lane → Lane) (s : State) (h : j ≠ i) :
    (s.mapLane i f).lane j = s.lane j := by
  simp [State.lane_mapLane, h]

theorem State.lane_setLane (i j : StreamId) (x : Lane) (s : State) :
    (s.setLane i x).lane j = if j = i then x else s.lane j := by
  simp [State.lane, State.setLane, putAt_get]

theorem State.mapLane_eq_setLane (i : StreamId) (f : Lane → Lane) (s : State) :
    s.mapLane i f = s.setLane i (f (s.lane i)) := rfl

@[simp] theorem State.mapLane_port (i : StreamId) (f : Lane → Lane) (s : State) :
    (s.mapLane i f).port = s.port := rfl
@[simp] theorem State.mapLane_ring (i : StreamId) (f : Lane → Lane) (s : State) :
    (s.mapLane i f).ring = s.ring := rfl
@[simp] theorem State.mapLane_admin (i : StreamId) (f : Lane → Lane) (s : State) :
    (s.mapLane i f).admin = s.admin := rfl
@[simp] theorem State.mapLane_intake (i : StreamId) (f : Lane → Lane) (s : State) :
    (s.mapLane i f).intake = s.intake := rfl
@[simp] theorem State.mapLane_raster (i : StreamId) (f : Lane → Lane) (s : State) :
    (s.mapLane i f).raster = s.raster := rfl
@[simp] theorem State.mapLane_bands (i : StreamId) (f : Lane → Lane) (s : State) :
    (s.mapLane i f).bands = s.bands := rfl
@[simp] theorem State.mapLane_streams (i : StreamId) (f : Lane → Lane) (s : State) :
    (s.mapLane i f).streams = s.streams := rfl
@[simp] theorem State.mapLane_pending (i : StreamId) (f : Lane → Lane) (s : State) :
    (s.mapLane i f).pending = s.pending := rfl
@[simp] theorem State.mapLane_stream (i j : StreamId) (f : Lane → Lane) (s : State) :
    (s.mapLane i f).stream j = s.stream j := rfl
@[simp] theorem State.mapLane_slot (i : StreamId) (f : Lane → Lane) (s : State) (k : SlotId) :
    (s.mapLane i f).slot k = s.slot k := rfl

/-! ## Slots -/

theorem State.slot_putSlot (k j : SlotId) (b : Option BandSlot) (s : State) :
    (s.putSlot k b).slot j = if j = k then b else s.slot j := by
  simp [State.slot, State.putSlot, putAt_get]

@[simp] theorem State.putSlot_port (k : SlotId) (b : Option BandSlot) (s : State) : (s.putSlot k b).port = s.port := rfl
@[simp] theorem State.putSlot_ring (k : SlotId) (b : Option BandSlot) (s : State) : (s.putSlot k b).ring = s.ring := rfl
@[simp] theorem State.putSlot_admin (k : SlotId) (b : Option BandSlot) (s : State) :
    (s.putSlot k b).admin = s.admin := rfl
@[simp] theorem State.putSlot_streams (k : SlotId) (b : Option BandSlot) (s : State) :
    (s.putSlot k b).streams = s.streams := rfl
@[simp] theorem State.putSlot_stream (k : SlotId) (b : Option BandSlot) (s : State) (i : StreamId) :
    (s.putSlot k b).stream i = s.stream i := rfl
@[simp] theorem State.putSlot_intake (k : SlotId) (b : Option BandSlot) (s : State) :
    (s.putSlot k b).intake = s.intake := rfl
@[simp] theorem State.putSlot_raster (k : SlotId) (b : Option BandSlot) (s : State) :
    (s.putSlot k b).raster = s.raster := rfl
@[simp] theorem State.putSlot_lanes (k : SlotId) (b : Option BandSlot) (s : State) :
    (s.putSlot k b).lanes = s.lanes := rfl
@[simp] theorem State.putSlot_lane (k : SlotId) (b : Option BandSlot) (s : State) (i : StreamId) :
    (s.putSlot k b).lane i = s.lane i := rfl
@[simp] theorem State.putSlot_pending (k : SlotId) (b : Option BandSlot) (s : State) :
    (s.putSlot k b).pending = s.pending := rfl
@[simp] theorem State.putSlot_free (k : SlotId) (b : Option BandSlot) (s : State) :
    (s.putSlot k b).bands.free = s.bands.free := rfl
@[simp] theorem State.putSlot_mem (k : SlotId) (b : Option BandSlot) (s : State) :
    (s.putSlot k b).bands.mem = s.bands.mem := rfl

theorem State.slot_mapSlot (k j : SlotId) (f : BandSlot → BandSlot) (s : State) :
    (s.mapSlot k f).slot j = if j = k then (s.slot k).map f else s.slot j := by
  simp [State.mapSlot, State.slot_putSlot]

/-! ## Equal fields give equal views -/

theorem State.stream_congr {s t : State} (h : t.streams = s.streams) (i : StreamId) : t.stream i = s.stream i := by
  simp [State.stream, h]

theorem State.lane_congr {s t : State} (h : t.lanes = s.lanes) (i : StreamId) : t.lane i = s.lane i := by
  simp [State.lane, h]

theorem State.slot_congr {s t : State} (h : t.bands = s.bands) (k : SlotId) : t.slot k = s.slot k := by
  simp [State.slot, h]

end Machine

end Sys2Proof
end

