-- ==== Sys2Proof/Laws/Frames.lean ====
section
/-!
SUPPORT. The frame of each shared operation: the blocks of the part it leaves unchanged. One lemma per operation.
-/

namespace Sys2Proof.Machine

/-! ## Events and entries (Flags, Ops) -/

@[simp] theorem State.raise_frame (c : Causes) (s : State) :
    (s.raise c).ring = s.ring ∧ (s.raise c).admin = s.admin ∧ (s.raise c).streams = s.streams ∧
    (s.raise c).intake = s.intake ∧ (s.raise c).raster = s.raster ∧ (s.raise c).bands = s.bands ∧
    (s.raise c).lanes = s.lanes ∧ (s.raise c).pending = s.pending := by
  simp [State.raise]

@[simp] theorem State.countEntry_frame (e : Entry) (s : State) :
    (s.countEntry e).admin = s.admin ∧ (s.countEntry e).streams = s.streams ∧ (s.countEntry e).intake = s.intake ∧
    (s.countEntry e).raster = s.raster ∧ (s.countEntry e).bands = s.bands ∧ (s.countEntry e).lanes = s.lanes ∧
    (s.countEntry e).pending = s.pending := by
  simp only [State.countEntry]
  repeat' split
  all_goals simp

@[simp] theorem State.admit_lane_frame (i : StreamId) (s : State) :
    (s.admitOffer (.lane i)).port = s.port ∧ (s.admitOffer (.lane i)).admin = s.admin ∧
    (s.admitOffer (.lane i)).streams = s.streams ∧ (s.admitOffer (.lane i)).intake = s.intake ∧
    (s.admitOffer (.lane i)).raster = s.raster ∧ (s.admitOffer (.lane i)).bands = s.bands ∧
    (s.admitOffer (.lane i)).pending = s.pending := by
  simp only [State.admitOffer]; split <;> simp [State.released]

@[simp] theorem State.admit_stream_frame (i : StreamId) (s : State) :
    (s.admitOffer (.stream i)).port = s.port ∧ (s.admitOffer (.stream i)).admin = s.admin ∧
    (s.admitOffer (.stream i)).intake = s.intake ∧ (s.admitOffer (.stream i)).raster = s.raster ∧
    (s.admitOffer (.stream i)).bands = s.bands ∧ (s.admitOffer (.stream i)).lanes = s.lanes ∧
    (s.admitOffer (.stream i)).pending = s.pending := by
  simp only [State.admitOffer]; split <;> simp [State.released]

@[simp] theorem State.admit_raster_frame (s : State) :
    (s.admitOffer .raster).port = s.port ∧ (s.admitOffer .raster).admin = s.admin ∧ (s.admitOffer .raster).streams = s.streams ∧
    (s.admitOffer .raster).intake = s.intake ∧ (s.admitOffer .raster).bands = s.bands ∧ (s.admitOffer .raster).lanes = s.lanes ∧
    (s.admitOffer .raster).pending = s.pending := by
  simp only [State.admitOffer]; split <;> simp [State.released]

@[simp] theorem State.admit_admin_frame (s : State) :
    (s.admitOffer .admin).port = s.port ∧ (s.admitOffer .admin).streams = s.streams ∧ (s.admitOffer .admin).intake = s.intake ∧
    (s.admitOffer .admin).raster = s.raster ∧ (s.admitOffer .admin).bands = s.bands ∧ (s.admitOffer .admin).lanes = s.lanes ∧
    (s.admitOffer .admin).pending = s.pending := by
  simp only [State.admitOffer]; split <;> simp [State.released]

@[simp] theorem State.admitAsMade_lane_frame (i : StreamId) (s : State) :
    (s.admitAsMade (.lane i)).port = s.port ∧ (s.admitAsMade (.lane i)).admin = s.admin ∧
    (s.admitAsMade (.lane i)).streams = s.streams ∧ (s.admitAsMade (.lane i)).intake = s.intake ∧
    (s.admitAsMade (.lane i)).raster = s.raster ∧ (s.admitAsMade (.lane i)).bands = s.bands ∧
    (s.admitAsMade (.lane i)).pending = s.pending := by
  simp only [State.admitAsMade]; split <;> simp

@[simp] theorem State.admitAsMade_stream_frame (i : StreamId) (s : State) :
    (s.admitAsMade (.stream i)).port = s.port ∧ (s.admitAsMade (.stream i)).admin = s.admin ∧
    (s.admitAsMade (.stream i)).intake = s.intake ∧ (s.admitAsMade (.stream i)).raster = s.raster ∧
    (s.admitAsMade (.stream i)).bands = s.bands ∧ (s.admitAsMade (.stream i)).lanes = s.lanes ∧
    (s.admitAsMade (.stream i)).pending = s.pending := by
  simp only [State.admitAsMade]; split <;> simp

@[simp] theorem State.admitAsMade_raster_frame (s : State) :
    (s.admitAsMade .raster).port = s.port ∧ (s.admitAsMade .raster).admin = s.admin ∧
    (s.admitAsMade .raster).streams = s.streams ∧ (s.admitAsMade .raster).intake = s.intake ∧
    (s.admitAsMade .raster).bands = s.bands ∧ (s.admitAsMade .raster).lanes = s.lanes ∧
    (s.admitAsMade .raster).pending = s.pending := by
  simp only [State.admitAsMade]; split <;> simp

@[simp] theorem State.admitAsMade_admin_frame (s : State) :
    (s.admitAsMade .admin).port = s.port ∧ (s.admitAsMade .admin).streams = s.streams ∧
    (s.admitAsMade .admin).intake = s.intake ∧ (s.admitAsMade .admin).raster = s.raster ∧
    (s.admitAsMade .admin).bands = s.bands ∧ (s.admitAsMade .admin).lanes = s.lanes ∧
    (s.admitAsMade .admin).pending = s.pending := by
  simp only [State.admitAsMade]; split <;> simp

@[simp] theorem State.offerStream_frame (i : StreamId) (s : State) :
    (s.offerStream i).port = s.port ∧ (s.offerStream i).admin = s.admin ∧ (s.offerStream i).intake = s.intake ∧
    (s.offerStream i).raster = s.raster ∧ (s.offerStream i).bands = s.bands ∧ (s.offerStream i).lanes = s.lanes ∧
    (s.offerStream i).pending = s.pending := by
  unfold State.offerStream
  generalize (s.stream i).marks.length + 2 = n
  induction n with
  | zero => simp [Nat.repeat]
  | succ n ih => simp [Nat.repeat, ih]

@[simp] theorem State.issueEntry_frame (s : State) :
    (s.issueEntry).admin = s.admin ∧ (s.issueEntry).streams = s.streams ∧ (s.issueEntry).intake = s.intake ∧
    (s.issueEntry).raster = s.raster ∧ (s.issueEntry).bands = s.bands ∧ (s.issueEntry).lanes = s.lanes ∧
    (s.issueEntry).pending = s.pending := by
  simp only [State.issueEntry]; split <;> simp

@[simp] theorem State.issueSnapshot_frame (addr : BitVec 64) (bytes : List Byte) (s : State) :
    (s.issueSnapshot addr bytes).streams = s.streams ∧ (s.issueSnapshot addr bytes).intake = s.intake ∧
    (s.issueSnapshot addr bytes).raster = s.raster ∧ (s.issueSnapshot addr bytes).bands = s.bands ∧
    (s.issueSnapshot addr bytes).lanes = s.lanes ∧ (s.issueSnapshot addr bytes).pending = s.pending := by
  simp only [State.issueSnapshot]
  repeat' split
  all_goals simp

/-- Counting an issued request changes neither what the unit offers nor the stream it carries. -/
@[simp] theorem RasterUnit.issued_offer (who : Requester) (r : RasterUnit) :
    (r.issued who).offer = r.offer ∧ (r.issued who).stream = r.stream := by
  cases who <;> cases r <;> simp [RasterUnit.issued, RasterUnit.offer, RasterUnit.stream]

/-- Dropping the messages that wait keeps everything else that waits, and every other field of the port. -/
theorem Port.dropMessages_keeps (p : Port) :
    p.dropMessages = { p with waiting := p.dropMessages.waiting } ∧
      ∀ a, a ∈ p.dropMessages.waiting ↔ a ∈ p.waiting ∧ a ≠ .message := by
  simp [Port.dropMessages]

@[simp] theorem State.issueAsk_frame (a : LinkAsk) (s : State) :
    (s.issueAsk a).streams = s.streams ∧ (s.issueAsk a).intake = s.intake ∧
    (s.issueAsk a).raster.offer = s.raster.offer ∧ (s.issueAsk a).raster.stream = s.raster.stream ∧
    (s.issueAsk a).bands = s.bands ∧ (s.issueAsk a).lanes = s.lanes ∧ (s.issueAsk a).pending = s.pending := by
  simp only [State.issueAsk]
  repeat' split
  all_goals simp

@[simp] theorem State.issueAsks_frame (l : List LinkAsk) (s : State) :
    (l.foldl State.issueAsk s).streams = s.streams ∧ (l.foldl State.issueAsk s).intake = s.intake ∧
    (l.foldl State.issueAsk s).raster.offer = s.raster.offer ∧
    (l.foldl State.issueAsk s).raster.stream = s.raster.stream ∧ (l.foldl State.issueAsk s).bands = s.bands ∧
    (l.foldl State.issueAsk s).lanes = s.lanes ∧ (l.foldl State.issueAsk s).pending = s.pending := by
  induction l generalizing s with
  | nil => simp
  | cons a l ih => simp [ih]

@[simp] theorem State.drainWaiting_frame (s : State) :
    (s.drainWaiting).streams = s.streams ∧ (s.drainWaiting).intake = s.intake ∧
    (s.drainWaiting).raster.offer = s.raster.offer ∧ (s.drainWaiting).raster.stream = s.raster.stream ∧
    (s.drainWaiting).bands = s.bands ∧ (s.drainWaiting).lanes = s.lanes ∧ (s.drainWaiting).pending = s.pending := by
  simp [State.drainWaiting]


/-! ## The band manager (BandTable) -/

@[simp] theorem State.mapSlot_frame (k : SlotId) (f : BandSlot → BandSlot) (s : State) :
    (s.mapSlot k f).port = s.port ∧ (s.mapSlot k f).ring = s.ring ∧ (s.mapSlot k f).admin = s.admin ∧
    (s.mapSlot k f).streams = s.streams ∧ (s.mapSlot k f).intake = s.intake ∧ (s.mapSlot k f).raster = s.raster ∧
    (s.mapSlot k f).lanes = s.lanes ∧ (s.mapSlot k f).pending = s.pending := by
  simp [State.mapSlot]

@[simp] theorem State.openNew_frame (i : StreamId) (k : SlotId) (band : Band) (pages : Nat) (s : State) :
    (s.openNew i k band pages).port = s.port ∧ (s.openNew i k band pages).ring = s.ring ∧
    (s.openNew i k band pages).admin = s.admin ∧ (s.openNew i k band pages).intake = s.intake ∧
    (s.openNew i k band pages).raster = s.raster ∧ (s.openNew i k band pages).lanes = s.lanes ∧
    (s.openNew i k band pages).pending = s.pending := by
  simp [State.openNew]

@[simp] theorem State.freeSlot_frame (k : SlotId) (s : State) :
    (s.freeSlot k).port = s.port ∧ (s.freeSlot k).ring = s.ring ∧ (s.freeSlot k).admin = s.admin ∧
    (s.freeSlot k).streams = s.streams ∧ (s.freeSlot k).intake = s.intake ∧ (s.freeSlot k).raster = s.raster ∧
    (s.freeSlot k).lanes = s.lanes ∧ (s.freeSlot k).pending = s.pending := by
  simp only [State.freeSlot]; split <;> simp

@[simp] theorem State.discardSlot_frame (k : SlotId) (s : State) :
    (s.discardSlot k).port = s.port ∧ (s.discardSlot k).ring = s.ring ∧ (s.discardSlot k).admin = s.admin ∧
    (s.discardSlot k).streams = s.streams ∧ (s.discardSlot k).intake = s.intake ∧
    (s.discardSlot k).raster = s.raster ∧ (s.discardSlot k).lanes = s.lanes ∧
    (s.discardSlot k).pending = s.pending := by
  simp only [State.discardSlot]; split <;> simp

@[simp] theorem State.freeAll_frame (i : StreamId) (s : State) :
    (s.freeAll i).port = s.port ∧ (s.freeAll i).ring = s.ring ∧ (s.freeAll i).admin = s.admin ∧
    (s.freeAll i).streams = s.streams ∧ (s.freeAll i).intake = s.intake ∧ (s.freeAll i).raster = s.raster ∧
    (s.freeAll i).lanes = s.lanes ∧ (s.freeAll i).pending = s.pending := by
  unfold State.freeAll
  generalize s.slotsByDistance i = l
  induction l generalizing s with
  | nil => simp
  | cons k l ih => simp [ih]

@[simp] theorem State.autoClose_frame (i : StreamId) (s : State) :
    (s.autoClose i).port = s.port ∧ (s.autoClose i).ring = s.ring ∧ (s.autoClose i).admin = s.admin ∧
    (s.autoClose i).streams = s.streams ∧ (s.autoClose i).intake = s.intake ∧ (s.autoClose i).raster = s.raster ∧
    (s.autoClose i).lanes = s.lanes ∧ (s.autoClose i).pending = s.pending := by
  simp [State.autoClose]

@[simp] theorem State.passBand_frame (i : StreamId) (k : SlotId) (s : State) :
    (s.passBand i k).port = s.port ∧ (s.passBand i k).ring = s.ring ∧ (s.passBand i k).admin = s.admin ∧
    (s.passBand i k).intake = s.intake ∧ (s.passBand i k).raster = s.raster ∧ (s.passBand i k).lanes = s.lanes ∧
    (s.passBand i k).pending = s.pending := by
  simp [State.passBand]

@[simp] theorem State.skipBand_frame (i : StreamId) (k : SlotId) (s : State) :
    (s.skipBand i k).port = s.port ∧ (s.skipBand i k).admin = s.admin ∧ (s.skipBand i k).intake = s.intake ∧
    (s.skipBand i k).raster = s.raster ∧ (s.skipBand i k).lanes = s.lanes ∧ (s.skipBand i k).pending = s.pending := by
  simp [State.skipBand]


/-! ## Stream control (StreamControl) -/

@[simp] theorem State.emptyLatch_frame (i : StreamId) (s : State) :
    (s.emptyLatch i).port = s.port ∧ (s.emptyLatch i).ring = s.ring ∧ (s.emptyLatch i).admin = s.admin ∧
    (s.emptyLatch i).raster = s.raster ∧ (s.emptyLatch i).bands = s.bands ∧ (s.emptyLatch i).lanes = s.lanes ∧
    (s.emptyLatch i).pending = s.pending := by
  simp [State.emptyLatch]

@[simp] theorem State.halt_frame (i : StreamId) (info : HaltInfo) (s : State) :
    (s.halt i info).port = s.port ∧ (s.halt i info).ring = s.ring ∧ (s.halt i info).admin = s.admin ∧
    (s.halt i info).raster = s.raster ∧ (s.halt i info).bands = s.bands ∧ (s.halt i info).lanes = s.lanes ∧
    (s.halt i info).pending = s.pending := by
  simp only [State.halt]; split <;> simp

@[simp] theorem State.drainEnd_frame (i : StreamId) (s : State) :
    (s.drainEnd i).port = s.port ∧ (s.drainEnd i).admin = s.admin ∧ (s.drainEnd i).intake = s.intake ∧
    (s.drainEnd i).raster = s.raster ∧ (s.drainEnd i).bands = s.bands ∧ (s.drainEnd i).pending = s.pending := by
  simp [State.drainEnd]

@[simp] theorem State.lookForDrainEnd_frame (i : StreamId) (s : State) :
    (s.lookForDrainEnd i).port = s.port ∧ (s.lookForDrainEnd i).admin = s.admin ∧
    (s.lookForDrainEnd i).intake = s.intake ∧ (s.lookForDrainEnd i).raster = s.raster ∧
    (s.lookForDrainEnd i).bands = s.bands ∧ (s.lookForDrainEnd i).pending = s.pending := by
  simp only [State.lookForDrainEnd]; split <;> simp


/-! ## The lanes (LaneOps) -/

@[simp] theorem State.countStale_frame (i : StreamId) (s : State) :
    (s.countStale i).port = s.port ∧ (s.countStale i).ring = s.ring ∧ (s.countStale i).admin = s.admin ∧
    (s.countStale i).streams = s.streams ∧ (s.countStale i).intake = s.intake ∧ (s.countStale i).raster = s.raster ∧
    (s.countStale i).bands = s.bands ∧ (s.countStale i).pending = s.pending := by
  simp only [State.countStale]; split <;> simp

@[simp] theorem State.countBad_frame (i : StreamId) (s : State) :
    (s.countBad i).port = s.port ∧ (s.countBad i).ring = s.ring ∧ (s.countBad i).admin = s.admin ∧
    (s.countBad i).streams = s.streams ∧ (s.countBad i).intake = s.intake ∧ (s.countBad i).raster = s.raster ∧
    (s.countBad i).bands = s.bands ∧ (s.countBad i).pending = s.pending := by
  simp only [State.countBad]; split <;> simp

@[simp] theorem State.countResend_frame (i : StreamId) (s : State) :
    (s.countResend i).port = s.port ∧ (s.countResend i).ring = s.ring ∧ (s.countResend i).admin = s.admin ∧
    (s.countResend i).streams = s.streams ∧ (s.countResend i).intake = s.intake ∧
    (s.countResend i).raster = s.raster ∧ (s.countResend i).bands = s.bands ∧
    (s.countResend i).pending = s.pending := by
  simp only [State.countResend]; split <;> simp

@[simp] theorem State.postEvent_frame (i : StreamId) (ev : LaneEvent) (s : State) :
    (s.postEvent i ev).port = s.port ∧ (s.postEvent i ev).admin = s.admin ∧ (s.postEvent i ev).streams = s.streams ∧
    (s.postEvent i ev).intake = s.intake ∧ (s.postEvent i ev).raster = s.raster ∧
    (s.postEvent i ev).bands = s.bands ∧ (s.postEvent i ev).pending = s.pending := by
  simp only [State.postEvent]; split <;> simp

@[simp] theorem State.settleLane_frame (i : StreamId) (s : State) :
    (s.settleLane i).port = s.port ∧ (s.settleLane i).ring = s.ring ∧ (s.settleLane i).admin = s.admin ∧
    (s.settleLane i).streams = s.streams ∧ (s.settleLane i).intake = s.intake ∧ (s.settleLane i).raster = s.raster ∧
    (s.settleLane i).bands = s.bands ∧ (s.settleLane i).pending = s.pending := by
  simp [State.settleLane]

@[simp] theorem State.laneHalted_frame (i : StreamId) (reason : BitVec 4) (band : Option Band) (s : State) :
    (s.laneHalted i reason band).port = s.port ∧ (s.laneHalted i reason band).admin = s.admin ∧
    (s.laneHalted i reason band).streams = s.streams ∧ (s.laneHalted i reason band).intake = s.intake ∧
    (s.laneHalted i reason band).raster = s.raster ∧ (s.laneHalted i reason band).bands = s.bands ∧
    (s.laneHalted i reason band).pending = s.pending := by
  simp [State.laneHalted]

@[simp] theorem State.laneLost_frame (i : StreamId) (s : State) :
    (s.laneLost i).port = s.port ∧ (s.laneLost i).admin = s.admin ∧ (s.laneLost i).streams = s.streams ∧
    (s.laneLost i).intake = s.intake ∧ (s.laneLost i).raster = s.raster ∧ (s.laneLost i).bands = s.bands ∧
    (s.laneLost i).pending = s.pending := by
  simp [State.laneLost]

@[simp] theorem State.enterSyncing_frame (i : StreamId) (s : State) :
    (s.enterSyncing i).port = s.port ∧ (s.enterSyncing i).ring = s.ring ∧ (s.enterSyncing i).admin = s.admin ∧
    (s.enterSyncing i).streams = s.streams ∧ (s.enterSyncing i).intake = s.intake ∧
    (s.enterSyncing i).raster = s.raster ∧ (s.enterSyncing i).bands = s.bands ∧
    (s.enterSyncing i).pending = s.pending := by
  simp [State.enterSyncing]

@[simp] theorem State.startCancel_frame (i : StreamId) (s : State) :
    (s.startCancel i).port = s.port ∧ (s.startCancel i).ring = s.ring ∧ (s.startCancel i).admin = s.admin ∧
    (s.startCancel i).streams = s.streams ∧ (s.startCancel i).intake = s.intake ∧
    (s.startCancel i).raster = s.raster ∧ (s.startCancel i).bands = s.bands ∧
    (s.startCancel i).pending = s.pending := by
  simp [State.startCancel]

@[simp] theorem State.startBand_frame (i : StreamId) (k : SlotId) (s : State) :
    (s.startBand i k).port = s.port ∧ (s.startBand i k).ring = s.ring ∧ (s.startBand i k).admin = s.admin ∧
    (s.startBand i k).streams = s.streams ∧ (s.startBand i k).intake = s.intake ∧
    (s.startBand i k).raster = s.raster ∧ (s.startBand i k).pending = s.pending := by
  simp only [State.startBand]; split <;> simp

@[simp] theorem State.sendChunk_frame (i : StreamId) (k : Nat) (s : State) :
    (s.sendChunk i k).port = s.port ∧ (s.sendChunk i k).ring = s.ring ∧ (s.sendChunk i k).admin = s.admin ∧
    (s.sendChunk i k).streams = s.streams ∧ (s.sendChunk i k).intake = s.intake ∧
    (s.sendChunk i k).raster = s.raster ∧ (s.sendChunk i k).bands = s.bands ∧
    (s.sendChunk i k).pending = s.pending := by
  simp [State.sendChunk]

@[simp] theorem State.sendTrailer_frame (i : StreamId) (s : State) :
    (s.sendTrailer i).port = s.port ∧ (s.sendTrailer i).ring = s.ring ∧ (s.sendTrailer i).admin = s.admin ∧
    (s.sendTrailer i).streams = s.streams ∧ (s.sendTrailer i).intake = s.intake ∧
    (s.sendTrailer i).raster = s.raster ∧ (s.sendTrailer i).bands = s.bands ∧
    (s.sendTrailer i).pending = s.pending := by
  simp [State.sendTrailer]

@[simp] theorem State.postSent_frame (i : StreamId) (b : BandSlot) (s : State) :
    (s.postSent i b).port = s.port ∧ (s.postSent i b).admin = s.admin ∧ (s.postSent i b).streams = s.streams ∧
    (s.postSent i b).intake = s.intake ∧ (s.postSent i b).raster = s.raster ∧ (s.postSent i b).bands = s.bands ∧
    (s.postSent i b).pending = s.pending := by
  simp only [State.postSent]; split <;> simp

@[simp] theorem State.sentBand_frame (i : StreamId) (k : SlotId) (s : State) :
    (s.sentBand i k).port = s.port ∧ (s.sentBand i k).admin = s.admin ∧ (s.sentBand i k).intake = s.intake ∧
    (s.sentBand i k).raster = s.raster ∧ (s.sentBand i k).pending = s.pending := by
  simp only [State.sentBand]
  repeat' split
  all_goals simp

@[simp] theorem State.bandEmitted_frame (i : StreamId) (s : State) :
    (s.bandEmitted i).port = s.port ∧ (s.bandEmitted i).admin = s.admin ∧ (s.bandEmitted i).intake = s.intake ∧
    (s.bandEmitted i).raster = s.raster ∧ (s.bandEmitted i).pending = s.pending := by
  simp only [State.bandEmitted]; split <;> simp

@[simp] theorem State.acceptTaken_frame (i : StreamId) (o : Outstanding) (s : State) :
    (s.acceptTaken i o).port = s.port ∧ (s.acceptTaken i o).admin = s.admin ∧ (s.acceptTaken i o).intake = s.intake ∧
    (s.acceptTaken i o).raster = s.raster ∧ (s.acceptTaken i o).pending = s.pending := by
  simp only [State.acceptTaken]
  repeat' split
  all_goals simp

@[simp] theorem State.exhausted_frame (i : StreamId) (o : Outstanding) (s : State) :
    (s.exhausted i o).port = s.port ∧ (s.exhausted i o).admin = s.admin ∧ (s.exhausted i o).streams = s.streams ∧
    (s.exhausted i o).intake = s.intake ∧ (s.exhausted i o).raster = s.raster ∧ (s.exhausted i o).bands = s.bands ∧
    (s.exhausted i o).pending = s.pending := by
  simp only [State.exhausted]; split <;> simp

@[simp] theorem State.waitTaken_frame (i : StreamId) (o : Outstanding) (s : State) :
    (s.waitTaken i o).port = s.port ∧ (s.waitTaken i o).admin = s.admin ∧ (s.waitTaken i o).streams = s.streams ∧
    (s.waitTaken i o).intake = s.intake ∧ (s.waitTaken i o).raster = s.raster ∧ (s.waitTaken i o).bands = s.bands ∧
    (s.waitTaken i o).pending = s.pending := by
  simp only [State.waitTaken]
  repeat' split
  all_goals simp

@[simp] theorem State.refuseTaken_frame (i : StreamId) (reason : BitVec 4) (o : Outstanding) (s : State) :
    (s.refuseTaken i reason o).port = s.port ∧ (s.refuseTaken i reason o).admin = s.admin ∧
    (s.refuseTaken i reason o).streams = s.streams ∧ (s.refuseTaken i reason o).intake = s.intake ∧
    (s.refuseTaken i reason o).raster = s.raster ∧ (s.refuseTaken i reason o).bands = s.bands ∧
    (s.refuseTaken i reason o).pending = s.pending := by
  simp only [State.refuseTaken]; split <;> simp

@[simp] theorem State.takeCredit_frame (i : StreamId) (grant : Byte) (s : State) :
    (s.takeCredit i grant).port = s.port ∧ (s.takeCredit i grant).ring = s.ring ∧
    (s.takeCredit i grant).admin = s.admin ∧ (s.takeCredit i grant).streams = s.streams ∧
    (s.takeCredit i grant).intake = s.intake ∧ (s.takeCredit i grant).raster = s.raster ∧
    (s.takeCredit i grant).bands = s.bands ∧ (s.takeCredit i grant).pending = s.pending := by
  simp only [State.takeCredit]; split <;> simp

@[simp] theorem State.resend_frame (i : StreamId) (s : State) :
    (s.resend i).port = s.port ∧ (s.resend i).ring = s.ring ∧ (s.resend i).admin = s.admin ∧
    (s.resend i).streams = s.streams ∧ (s.resend i).intake = s.intake ∧ (s.resend i).raster = s.raster ∧
    (s.resend i).bands = s.bands ∧ (s.resend i).pending = s.pending := by
  simp [State.resend]

@[simp] theorem State.replyExpired_frame (i : StreamId) (o : Outstanding) (s : State) :
    (s.replyExpired i o).port = s.port ∧ (s.replyExpired i o).admin = s.admin ∧
    (s.replyExpired i o).streams = s.streams ∧ (s.replyExpired i o).intake = s.intake ∧
    (s.replyExpired i o).raster = s.raster ∧ (s.replyExpired i o).bands = s.bands ∧
    (s.replyExpired i o).pending = s.pending := by
  simp only [State.replyExpired]
  repeat' split
  all_goals simp

@[simp] theorem State.stopLane_frame (i : StreamId) (s : State) :
    (s.stopLane i).port = s.port ∧ (s.stopLane i).ring = s.ring ∧ (s.stopLane i).admin = s.admin ∧
    (s.stopLane i).streams = s.streams ∧ (s.stopLane i).intake = s.intake ∧ (s.stopLane i).raster = s.raster ∧
    (s.stopLane i).bands = s.bands ∧ (s.stopLane i).pending = s.pending := by
  simp [State.stopLane]


/-! ## The raster unit (RasterOps) -/

@[simp] theorem State.opEnds_frame (op : Op) (s : State) :
    (s.opEnds op).port = s.port ∧ (s.opEnds op).admin = s.admin ∧ (s.opEnds op).streams = s.streams ∧
    (s.opEnds op).intake = s.intake ∧ (s.opEnds op).bands = s.bands ∧ (s.opEnds op).lanes = s.lanes ∧
    (s.opEnds op).pending = s.pending := by
  simp only [State.opEnds]
  repeat' split
  all_goals simp

@[simp] theorem State.opFaults_frame (op : Op) (s : State) :
    (s.opFaults op).port = s.port ∧ (s.opFaults op).admin = s.admin ∧ (s.opFaults op).lanes = s.lanes ∧
    (s.opFaults op).pending = s.pending := by
  simp only [State.opFaults]; split <;> simp

@[simp] theorem State.askSourceRow_frame (op : Op) (x y : Int) (src : BitVec 64) (pitch ds : Nat) (s : State) :
    (s.askSourceRow op x y src pitch ds).ring = s.ring ∧ (s.askSourceRow op x y src pitch ds).admin = s.admin ∧
    (s.askSourceRow op x y src pitch ds).streams = s.streams ∧
    (s.askSourceRow op x y src pitch ds).intake = s.intake ∧ (s.askSourceRow op x y src pitch ds).bands = s.bands ∧
    (s.askSourceRow op x y src pitch ds).lanes = s.lanes ∧
    (s.askSourceRow op x y src pitch ds).pending = s.pending := by
  simp [State.askSourceRow]

@[simp] theorem State.opGoesOn_frame (op : Op) (s : State) :
    (s.opGoesOn op).admin = s.admin ∧ (s.opGoesOn op).streams = s.streams ∧ (s.opGoesOn op).intake = s.intake ∧
    (s.opGoesOn op).bands = s.bands ∧ (s.opGoesOn op).lanes = s.lanes ∧ (s.opGoesOn op).pending = s.pending := by
  simp only [State.opGoesOn]
  repeat' split
  all_goals simp

@[simp] theorem State.writeRow_frame (op : Op) (s : State) :
    (s.writeRow op).admin = s.admin ∧ (s.writeRow op).streams = s.streams ∧ (s.writeRow op).intake = s.intake ∧
    (s.writeRow op).lanes = s.lanes ∧ (s.writeRow op).pending = s.pending := by
  simp [State.writeRow]

@[simp] theorem State.sourceFinishes_frame (off : Nat) (res : Option (List Byte)) (op : Op) (s : State) :
    (s.sourceFinishes off res op).admin = s.admin ∧ (s.sourceFinishes off res op).lanes = s.lanes ∧
    (s.sourceFinishes off res op).pending = s.pending := by
  simp only [State.sourceFinishes]
  repeat' split
  all_goals simp


/-! ## The part (PartOps) -/

@[simp] theorem State.initialBlocks_frame (s : State) :
    (s.initialBlocks).port = s.port ∧ (s.initialBlocks).pending = s.pending := by
  simp [State.initialBlocks]

@[simp] theorem State.functionReset_frame (s : State) :
    (s.functionReset).pending = s.pending := by
  simp [State.functionReset]

@[simp] theorem State.becomeFatal_frame (code : FatalCode) (s : State) :
    (s.becomeFatal code).ring = s.ring ∧ (s.becomeFatal code).admin = s.admin ∧
    (s.becomeFatal code).streams = s.streams ∧ (s.becomeFatal code).intake = s.intake ∧
    (s.becomeFatal code).raster = s.raster ∧ (s.becomeFatal code).bands = s.bands ∧
    (s.becomeFatal code).pending = s.pending := by
  simp [State.becomeFatal]

@[simp] theorem State.attachFails_frame (code : AttachCode) (s : State) :
    (s.attachFails code).ring = s.ring ∧ (s.attachFails code).admin = s.admin ∧
    (s.attachFails code).streams = s.streams ∧ (s.attachFails code).intake = s.intake ∧
    (s.attachFails code).raster = s.raster ∧ (s.attachFails code).bands = s.bands ∧
    (s.attachFails code).lanes = s.lanes ∧ (s.attachFails code).pending = s.pending := by
  simp [State.attachFails]

@[simp] theorem State.attachOne_frame (s : State) :
    (s.attachOne).ring = s.ring ∧ (s.attachOne).admin = s.admin ∧ (s.attachOne).streams = s.streams ∧
    (s.attachOne).intake = s.intake ∧ (s.attachOne).raster = s.raster ∧ (s.attachOne).bands = s.bands ∧
    (s.attachOne).lanes = s.lanes ∧ (s.attachOne).pending = s.pending := by
  simp only [State.attachOne]
  repeat' split
  all_goals simp

@[simp] theorem State.detachBegins_frame (s : State) :
    (s.detachBegins).bands = s.bands ∧ (s.detachBegins).pending = s.pending := by
  simp [State.detachBegins]

@[simp] theorem State.attachZero_frame (s : State) :
    (s.attachZero).bands = s.bands ∧ (s.attachZero).pending = s.pending := by
  simp only [State.attachZero]
  repeat' split
  all_goals simp

@[simp] theorem State.takeCommand_frame (bs : List Byte) (s : State) :
    (s.takeCommand bs).port = s.port ∧ (s.takeCommand bs).ring = s.ring ∧ (s.takeCommand bs).streams = s.streams ∧
    (s.takeCommand bs).intake = s.intake ∧ (s.takeCommand bs).raster = s.raster ∧
    (s.takeCommand bs).bands = s.bands ∧ (s.takeCommand bs).lanes = s.lanes ∧
    (s.takeCommand bs).pending = s.pending := by
  simp only [State.takeCommand]
  repeat' split
  all_goals simp

/-- Everything the return of an admin fetch with data can do (R143). -/
theorem State.takeCommand_cases (bs : List Byte) (s : State) :
    s.takeCommand bs = { s with admin := .idle } ∨
    ∃ r, s.ring.admin = some r ∧ r.head ≠ r.tail ∧ s.takeCommand bs = { s with admin := .fetched bs r.head false } := by
  unfold State.takeCommand
  split
  · next r hr =>
    split
    · exact .inl rfl
    · next h => exact .inr ⟨r, hr, by simpa [Ring.isEmpty] using h, rfl⟩
  · exact .inl rfl

@[simp] theorem State.adminReadEnds_frame (res : Option (List Byte)) (s : State) :
    (s.adminReadEnds res).streams = s.streams ∧
    (s.adminReadEnds res).intake = s.intake ∧ (s.adminReadEnds res).raster = s.raster ∧
    (s.adminReadEnds res).bands = s.bands ∧ (s.adminReadEnds res).pending = s.pending := by
  simp only [State.adminReadEnds]
  repeat' split
  all_goals simp

@[simp] theorem State.recordReadEnds_frame (res : Option (List Byte)) (s : State) :
    (s.recordReadEnds res).port = s.port ∧ (s.recordReadEnds res).ring = s.ring ∧
    (s.recordReadEnds res).admin = s.admin ∧ (s.recordReadEnds res).raster = s.raster ∧
    (s.recordReadEnds res).bands = s.bands ∧ (s.recordReadEnds res).lanes = s.lanes ∧
    (s.recordReadEnds res).pending = s.pending := by
  simp only [State.recordReadEnds]
  repeat' split
  all_goals simp

@[simp] theorem State.sourceReadEnds_frame (off : Nat) (res : Option (List Byte)) (s : State) :
    (s.sourceReadEnds off res).admin = s.admin ∧ (s.sourceReadEnds off res).lanes = s.lanes ∧
    (s.sourceReadEnds off res).pending = s.pending := by
  simp only [State.sourceReadEnds]
  repeat' split
  all_goals simp

@[simp] theorem State.rejectNotify_frame (s : State) :
    (s.rejectNotify).ring = s.ring ∧ (s.rejectNotify).admin = s.admin ∧ (s.rejectNotify).streams = s.streams ∧
    (s.rejectNotify).intake = s.intake ∧ (s.rejectNotify).raster = s.raster ∧ (s.rejectNotify).bands = s.bands ∧
    (s.rejectNotify).lanes = s.lanes ∧ (s.rejectNotify).pending = s.pending := by
  simp [State.rejectNotify]

@[simp] theorem State.setAdminTail_frame (r : Ring) (index : Nat) (s : State) :
    (s.setAdminTail r index).port = s.port ∧ (s.setAdminTail r index).streams = s.streams ∧
    (s.setAdminTail r index).intake = s.intake ∧ (s.setAdminTail r index).raster = s.raster ∧
    (s.setAdminTail r index).bands = s.bands ∧ (s.setAdminTail r index).lanes = s.lanes ∧
    (s.setAdminTail r index).pending = s.pending := by
  simp only [State.setAdminTail]
  repeat' split
  all_goals simp

@[simp] theorem State.setStreamTail_frame (i : StreamId) (r : Ring) (index : Nat) (s : State) :
    (s.setStreamTail i r index).port = s.port ∧ (s.setStreamTail i r index).ring = s.ring ∧
    (s.setStreamTail i r index).admin = s.admin ∧ (s.setStreamTail i r index).raster = s.raster ∧
    (s.setStreamTail i r index).bands = s.bands ∧ (s.setStreamTail i r index).lanes = s.lanes ∧
    (s.setStreamTail i r index).pending = s.pending := by
  simp only [State.setStreamTail]; split <;> simp

@[simp] theorem State.notify_frame (queue : BitVec 8) (index : BitVec 16) (s : State) :
    (s.notify queue index).raster = s.raster ∧ (s.notify queue index).bands = s.bands ∧
    (s.notify queue index).lanes = s.lanes ∧ (s.notify queue index).pending = s.pending := by
  simp only [State.notify]
  repeat' split
  all_goals simp

@[simp] theorem State.writeCause_frame (value : BitVec 32) (s : State) :
    (s.writeCause value).ring = s.ring ∧ (s.writeCause value).admin = s.admin ∧
    (s.writeCause value).streams = s.streams ∧ (s.writeCause value).intake = s.intake ∧
    (s.writeCause value).raster = s.raster ∧ (s.writeCause value).bands = s.bands ∧
    (s.writeCause value).lanes = s.lanes ∧ (s.writeCause value).pending = s.pending := by
  simp [State.writeCause]

@[simp] theorem State.writeMask_frame (value : BitVec 32) (s : State) :
    (s.writeMask value).ring = s.ring ∧ (s.writeMask value).admin = s.admin ∧
    (s.writeMask value).streams = s.streams ∧ (s.writeMask value).intake = s.intake ∧
    (s.writeMask value).raster = s.raster ∧ (s.writeMask value).bands = s.bands ∧
    (s.writeMask value).lanes = s.lanes ∧ (s.writeMask value).pending = s.pending := by
  simp [State.writeMask]


/-! ## Commands and hand-overs (Admin, HandOver, StreamSteps) -/

@[simp] theorem State.leaveCommand_frame (a : AdminCmd) (s : State) :
    (s.leaveCommand a).port = s.port ∧ (s.leaveCommand a).streams = s.streams ∧
    (s.leaveCommand a).intake = s.intake ∧ (s.leaveCommand a).raster = s.raster ∧
    (s.leaveCommand a).bands = s.bands ∧ (s.leaveCommand a).lanes = s.lanes ∧
    (s.leaveCommand a).pending = s.pending ∧ (s.leaveCommand a).ring.admin = some a.past ∧
    (s.leaveCommand a).ring.queue = s.ring.queue := by
  simp [State.leaveCommand]

/-- Everything a written admin tail can do (R141, R143, log 3). -/
theorem State.setAdminTail_cases (r : Ring) (index : Nat) (s : State) :
    (∃ bs n met, s.admin = .fetched bs n met ∧
      ((index = r.head ∧ s.setAdminTail r index = { s with admin := .fetched bs n true }) ∨
       (index ≠ r.head ∧ s.setAdminTail r index =
        { s with admin := .fetched bs n false, ring := { s.ring with admin := some { r with tail := index } } }))) ∨
    (∀ bs n met, s.admin ≠ .fetched bs n met) ∧
      s.setAdminTail r index = { s with ring := { s.ring with admin := some { r with tail := index } } } := by
  cases h : s.admin with
  | fetched bs n met =>
    refine .inl ⟨bs, n, met, rfl, ?_⟩
    by_cases hi : index = r.head <;> simp [State.setAdminTail, h, hi]
  | _ => exact .inr ⟨fun _ _ _ => AdminUnit.noConfusion, by simp [State.setAdminTail, h]⟩

@[simp] theorem State.complete_frame (a : AdminCmd) (st : Status) (extra : BitVec 32) (s : State) :
    (s.complete a st extra).port = s.port ∧ (s.complete a st extra).streams = s.streams ∧
    (s.complete a st extra).intake = s.intake ∧ (s.complete a st extra).raster = s.raster ∧
    (s.complete a st extra).bands = s.bands ∧ (s.complete a st extra).lanes = s.lanes ∧
    (s.complete a st extra).pending = s.pending := by
  simp [State.complete]

@[simp] theorem State.consumeRecord_frame (i : StreamId) (s : State) :
    (s.consumeRecord i).port = s.port ∧ (s.consumeRecord i).ring = s.ring ∧ (s.consumeRecord i).admin = s.admin ∧
    (s.consumeRecord i).raster = s.raster ∧ (s.consumeRecord i).bands = s.bands ∧
    (s.consumeRecord i).lanes = s.lanes ∧ (s.consumeRecord i).pending = s.pending := by
  simp [State.consumeRecord]

@[simp] theorem State.holdEntry_frame (i : StreamId) (e : Entry) (s : State) :
    (s.holdEntry i e).port = s.port ∧ (s.holdEntry i e).admin = s.admin ∧ (s.holdEntry i e).streams = s.streams ∧
    (s.holdEntry i e).intake = s.intake ∧ (s.holdEntry i e).bands = s.bands ∧ (s.holdEntry i e).lanes = s.lanes ∧
    (s.holdEntry i e).pending = s.pending := by
  simp [State.holdEntry]

@[simp] theorem State.finishRecord_frame (h : Hand) (owed : Bool) (st : Status) (extra : BitVec 32) (s : State) :
    (s.finishRecord h owed st extra).port = s.port ∧ (s.finishRecord h owed st extra).admin = s.admin ∧
    (s.finishRecord h owed st extra).bands = s.bands ∧ (s.finishRecord h owed st extra).lanes = s.lanes ∧
    (s.finishRecord h owed st extra).pending = s.pending := by
  simp only [State.finishRecord]; split <;> simp

@[simp] theorem State.failRecord_frame (h : Hand) (st : Status) (band : Option Band) (s : State) :
    (s.failRecord h st band).port = s.port ∧ (s.failRecord h st band).admin = s.admin ∧
    (s.failRecord h st band).bands = s.bands ∧ (s.failRecord h st band).lanes = s.lanes ∧
    (s.failRecord h st band).pending = s.pending := by
  simp [State.failRecord]

@[simp] theorem State.ringFault_frame (i : StreamId) (n : Nat) (s : State) :
    (s.ringFault i n).port = s.port ∧ (s.ringFault i n).admin = s.admin ∧ (s.ringFault i n).bands = s.bands ∧
    (s.ringFault i n).lanes = s.lanes ∧ (s.ringFault i n).pending = s.pending := by
  simp [State.ringFault]

@[simp] theorem State.skipRecord_frame (h : Hand) (k : RecKind) (s : State) :
    (s.skipRecord h k).port = s.port ∧ (s.skipRecord h k).admin = s.admin ∧ (s.skipRecord h k).bands = s.bands ∧
    (s.skipRecord h k).lanes = s.lanes ∧ (s.skipRecord h k).pending = s.pending := by
  simp [State.skipRecord]

@[simp] theorem State.beginOp_frame (h : Hand) (kind : OpKind) (slot : SlotId) (area : Area) (s : State) :
    (s.beginOp h kind slot area).admin = s.admin ∧ (s.beginOp h kind slot area).bands = s.bands ∧
    (s.beginOp h kind slot area).lanes = s.lanes ∧ (s.beginOp h kind slot area).pending = s.pending := by
  simp [State.beginOp]

@[simp] theorem State.abortBands_frame (i : StreamId) (s : State) :
    (s.abortBands i).port = s.port ∧ (s.abortBands i).admin = s.admin ∧ (s.abortBands i).intake = s.intake ∧
    (s.abortBands i).raster = s.raster ∧ (s.abortBands i).lanes = s.lanes ∧ (s.abortBands i).pending = s.pending := by
  simp [State.abortBands]

@[simp] theorem State.abortStop_frame (i : StreamId) (s : State) :
    (s.abortStop i).port = s.port ∧ (s.abortStop i).admin = s.admin ∧ (s.abortStop i).intake = s.intake ∧
    (s.abortStop i).raster = s.raster ∧ (s.abortStop i).bands = s.bands ∧ (s.abortStop i).lanes = s.lanes ∧
    (s.abortStop i).pending = s.pending := by
  simp [State.abortStop]

@[simp] theorem State.abortEnd_frame (i : StreamId) (s : State) :
    (s.abortEnd i).port = s.port ∧ (s.abortEnd i).admin = s.admin ∧ (s.abortEnd i).intake = s.intake ∧
    (s.abortEnd i).raster = s.raster ∧ (s.abortEnd i).bands = s.bands ∧ (s.abortEnd i).lanes = s.lanes ∧
    (s.abortEnd i).pending = s.pending := by
  simp [State.abortEnd]

end Sys2Proof.Machine
end

