-- ==== Sys2Proof/Laws/Admission.lean ====
section
/-!
SUPPORT. Everything an admission can do: to the queue, and to the producer it releases.
-/

namespace Sys2Proof.Machine

/-- A producer has an offer exactly when it stands in the list of offers. -/
theorem State.mem_offers (s : State) (p : Producer) : p ∈ s.offers ↔ (s.offer p).isSome = true := by
  simp only [State.offers, List.mem_filter, and_iff_right_iff_imp]
  intro _
  cases p with
  | lane i => fin_cases i <;> decide
  | stream i => fin_cases i <;> decide
  | raster => decide
  | admin => decide

/-- A producer contends exactly when it has an offer that the arbiter may choose. -/
theorem State.mem_contenders (s : State) (p : Producer) :
    p ∈ s.contenders ↔ (s.offer p).isSome = true ∧ s.admissible p = true := by
  simp [State.contenders, State.mem_offers]

/-- An offer made is admitted as it is made, under R151's conditions, or waits. -/
theorem State.admitAsMade_cases (p : Producer) (s : State) :
    s.admitAsMade p = s ∨
    (s.port.part = .attached ∧ s.ring.queue.length < Config.queueLimit ∧ s.admissible p = true ∧
      s.contenders = [p] ∧ s.admitAsMade p = s.admitOffer p) := by
  unfold State.admitAsMade
  split
  · next h => exact .inr ⟨h.1, h.2.1, ((s.mem_contenders p).1 (by simp [h.2.2])).2, h.2.2, rfl⟩
  · exact .inl rfl

/-- A lane whose latch is empty holds back no STOP (R132). -/
theorem State.admissible_stream {s : State} {i : StreamId} (h : (s.lane i).latch = none) :
    s.admissible (.stream i) = true := by
  simp [State.admissible, Lane.holdsStop, h]

/-- The admin unit is passed by for no other reason than a STOP held back of the stream its command names (R39). -/
theorem State.admissible_admin {s : State} (h : ∀ i, s.admin.stream = some i → (s.lane i).holdsStop = false) :
    s.admissible .admin = true := by
  simp only [State.admissible]
  cases hs : s.admin.stream with
  | none => rfl
  | some i => simp [h i hs]

/-- A property that every admission of stream `i` keeps is kept by the offers of that stream (R25, R150). -/
theorem State.offerStream_keeps (P : State → Prop) (i : StreamId)
    (h : ∀ s, P s → s.ring.queue.length < Config.queueLimit → P (s.admitOffer (.stream i))) (s : State) (hs : P s) :
    P (s.offerStream i) := by
  have one : ∀ t, P t → P (t.admitAsMade (.stream i)) := fun t ht => by
    rcases State.admitAsMade_cases (.stream i) t with e | ⟨_, hl, _, _, e⟩
    · rw [e]; exact ht
    · rw [e]; exact h t ht hl
  unfold State.offerStream
  generalize (s.stream i).marks.length + 2 = n
  induction n with
  | zero => exact hs
  | succ n ih => exact one _ ih

/-- The queue after an admission: the offer joins its tail (R151). -/
theorem State.admit_queue (p : Producer) (s : State) :
    (s.admitOffer p).ring.queue = s.ring.queue ++ (s.offer p).toList := by
  unfold State.admitOffer
  cases h : s.offer p with
  | none => simp
  | some e => cases p <;> simp [State.released, State.mapLane, State.mapStream]

/-- An admission keeps the rings and coalescing. -/
theorem State.admit_rings (p : Producer) (s : State) :
    (s.admitOffer p).ring.admin = s.ring.admin ∧ (s.admitOffer p).ring.comp = s.ring.comp ∧
      (s.admitOffer p).ring.coalesce = s.ring.coalesce := by
  unfold State.admitOffer
  split <;> cases p <;> simp [State.released, State.mapLane, State.mapStream]

/-- The streams after an admission: only a stream's own admission changes it (R25, R39, R50). -/
theorem State.admit_stream (p : Producer) (s : State) (j : StreamId) :
    (s.admitOffer p).stream j = if p = .stream j ∧ (s.offer p).isSome = true then (s.stream j).admitted else s.stream j := by
  unfold State.admitOffer
  cases h : s.offer p with
  | none => simp
  | some e =>
    cases p with
    | stream i =>
      by_cases hj : j = i
      · subst hj; simp [State.released, State.stream, State.mapStream]
      · simp [State.released, State.stream, State.mapStream, putAt_get_ne _ _ hj, Ne.symm hj]
    | lane i => simp [State.released, State.stream, State.mapLane]
    | raster => simp [State.released, State.stream]
    | admin => simp [State.released, State.stream]

/-- The lanes after an admission: only a lane's own admission changes it (R129, R133). -/
theorem State.admit_lane (p : Producer) (s : State) (j : StreamId) :
    (s.admitOffer p).lane j =
      if p = .lane j ∧ (s.offer p).isSome = true then ({ s.lane j with latch := none, beforeStop := false } : Lane).settle
      else s.lane j := by
  unfold State.admitOffer
  cases h : s.offer p with
  | none => simp
  | some e =>
    cases p with
    | lane i =>
      by_cases hj : j = i
      · subst hj; simp [State.released, State.lane, State.mapLane]
      · simp [State.released, State.lane, State.mapLane, putAt_get_ne _ _ hj, Ne.symm hj]
    | stream i => simp [State.released, State.lane, State.mapStream]
    | raster => simp [State.released, State.lane]
    | admin => simp [State.released, State.lane]

/-- What the admission of a stream's offer can change of its context (R25, R39, R49, R50). -/
theorem Stream.admitted_cases (x : Stream) :
    x.admitted = { x with dstop := none } ∨ (∃ ms, x.admitted = { x with marks := ms }) ∨ x.admitted = x ∨
    ∃ d, x.dabort = some d ∧ d.due = true ∧ x.admitted =
      { x with
        dabort := none, abortAt := none, st := .ready, skip := none, halt := none
        ring := x.ring.map fun r => { r with head := r.tail } } := by
  unfold Stream.admitted
  split
  · exact .inl rfl
  · split
    · exact .inr (.inl ⟨_, rfl⟩)
    · split
      · next d hd =>
        split
        · next hdue => exact .inr (.inr (.inr ⟨d, hd, hdue, rfl⟩))
        · exact .inr (.inr (.inl rfl))
      · exact .inr (.inr (.inl rfl))

/-- The source of a producer's entry: 8 + i for lane `i`, below 8 for a stream (R146). -/
theorem State.offer_source (s : State) (p : Producer) (e : Entry) (h : s.offer p = some e) :
    (∀ i, p = .lane i → e.source = BitVec.ofNat 8 (8 + i.val)) ∧ (∀ i, p = .stream i → e.source.toNat < 8) := by
  constructor
  · rintro i rfl
    simp only [State.offer, Option.map_eq_some_iff] at h
    obtain ⟨ev, _, rfl⟩ := h
    cases ev <;> rfl
  · rintro i rfl
    have hi : ∀ i : StreamId, (BitVec.ofNat 8 (i.val + 1)).toNat < 8 := by decide
    simp only [State.offer, Stream.offer] at h
    split at h
    · cases h; simp [adminEntry]
    · split at h
      · cases h; exact hi i
      · split at h
        · split at h
          · cases h; simp [adminEntry]
          · cases h
        · cases h

/-- The arbiter's choice has an admissible offer (R151). -/
theorem State.chooseOffer_some {s : State} {p : Producer} (h : s.chooseOffer = some p) :
    (s.offer p).isSome = true ∧ s.admissible p = true := by
  have := List.mem_of_head? h
  simpa using (List.mem_filter.1 this).2

end Sys2Proof.Machine
end

