-- ==== Sys2Proof/Laws/Bands.lean ====
section
/-!
SUPPORT. What each operation on the band table does: to every slot, to the pages it holds, and to the page pool.
-/

namespace Sys2Proof.Machine

/-! ## The contents of the band table as a list -/

theorem slots_split {α : Type} {n : Nat} (v : Vector α n) (k : Fin n) :
    v.toList = v.toList.take k ++ v.get k :: v.toList.drop (k + 1) := by
  have hk : k.val < v.toList.length := by simp
  conv_lhs => rw [← List.take_append_drop k.val v.toList, List.drop_eq_getElem_cons hk]
  simp [Vector.get_eq_getElem]

theorem putAt_split {α : Type} {n : Nat} (v : Vector α n) (k : Fin n) (x : α) :
    (putAt v k x).toList = v.toList.take k ++ x :: v.toList.drop (k + 1) := by
  simp [putAt, Vector.toList_set, List.set_eq_take_append_cons_drop]

/-- The slots that are not FREE, but for slot `k`. -/
def Bands.rest (b : Bands) (k : SlotId) : List BandSlot :=
  (b.slots.toList.take k ++ b.slots.toList.drop (k + 1)).filterMap id

theorem filterMap_id_middle {α : Type} (l r : List (Option α)) (x : Option α) :
    ((l ++ x :: r).filterMap id).Perm (x.toList ++ (l ++ r).filterMap id) := by
  cases x with
  | none => simp [List.filterMap_append]
  | some x => simp [List.filterMap_append, List.perm_middle]

theorem Bands.live_perm (b : Bands) (k : SlotId) : b.live.Perm ((b.slots.get k).toList ++ b.rest k) := by
  unfold Bands.live Bands.rest
  conv_lhs => rw [slots_split b.slots k]
  exact filterMap_id_middle _ _ _

theorem Bands.live_putAt (b b' : Bands) (k : SlotId) (x : Option BandSlot) (h : b'.slots = putAt b.slots k x) :
    b'.live.Perm (x.toList ++ b.rest k) := by
  unfold Bands.live Bands.rest
  rw [h, putAt_split]
  exact filterMap_id_middle _ _ _

/-- A slot stands in the list of contents exactly when some slot number holds it. -/
theorem Bands.mem_live (b : Bands) (x : BandSlot) : x ∈ b.live ↔ ∃ k : SlotId, b.slots.get k = some x := by
  simp only [Bands.live, List.mem_filterMap, Vector.mem_toList_iff, Vector.mem_iff_getElem, id]
  constructor
  · rintro ⟨o, ⟨k, hk, rfl⟩, h⟩
    exact ⟨⟨k, hk⟩, by simpa [Vector.get_eq_getElem] using h⟩
  · rintro ⟨k, h⟩
    exact ⟨some x, ⟨k.val, k.isLt, by simpa [Vector.get_eq_getElem] using h⟩, rfl⟩

/-! ## Lookups -/

/-- The slot found has the property. -/
theorem State.findSlot_some {s : State} {p : BandSlot → Bool} {k : SlotId} (h : s.findSlot p = some k) :
    ∃ b, s.slot k = some b ∧ p b = true := by
  have := List.find?_some h
  simpa [Option.any_eq_true] using this

/-- No slot is found exactly when none has the property. -/
theorem State.findSlot_none {s : State} {p : BandSlot → Bool} :
    s.findSlot p = none ↔ ∀ k b, s.slot k = some b → p b = false := by
  simp only [State.findSlot, allSlots, List.find?_eq_none, List.mem_finRange, true_imp_iff, Option.any_eq_true]
  constructor
  · intro h k b hb
    exact Bool.eq_false_iff.2 fun hp => h k ⟨b, hb, hp⟩
  · rintro h k ⟨b, hb, hp⟩
    exact absurd hp (by simp [h k b hb])

/-- The slot found FREE is FREE (R9). -/
theorem State.lowestFree_some {s : State} {k : SlotId} (h : s.lowestFree = some k) : s.slot k = none := by
  have := List.find?_some h
  simpa using this

/-- A stream holds no slot exactly when no slot carries it. -/
theorem State.holdsSlot_false {s : State} {i : StreamId} :
    s.holdsSlot i = false ↔ ∀ k b, s.slot k = some b → b.stream ≠ i := by
  simp only [State.holdsSlot, List.any_eq_false, Bands.mem_live, beq_iff_eq]
  constructor
  · intro h k b hb; exact h b ⟨k, hb⟩
  · rintro h b ⟨k, hb⟩; exact h k b hb

/-! ## One slot at a time -/

theorem State.freeSlot_slot (k j : SlotId) (s : State) : (s.freeSlot k).slot j = if j = k then none else s.slot j := by
  unfold State.freeSlot
  split
  · next h =>
    by_cases hj : j = k
    · subst hj; simp [h]
    · simp [hj]
  · simp [State.slot, putAt_get]

theorem State.freeSlot_free (k : SlotId) (s : State) :
    (s.freeSlot k).bands.free = s.bands.free ++ (s.slot k).elim [] BandSlot.pages := by
  unfold State.freeSlot
  split <;> next h => simp [h]

theorem State.freeSlot_mem (k : SlotId) (s : State) : (s.freeSlot k).bands.mem = s.bands.mem := by
  unfold State.freeSlot; split <;> rfl

theorem State.discardSlot_slot (k j : SlotId) (s : State) :
    (s.discardSlot k).slot j =
      if j = k then (s.slot k).map fun b =>
        { b with st := .closed, blank := true, notify := false, tag := none, pages := [] }
      else s.slot j := by
  unfold State.discardSlot
  split
  · next h =>
    by_cases hj : j = k
    · subst hj; simp [h]
    · simp [hj]
  · next b h => simp [State.slot, putAt_get]; simp [State.slot] at h; simp [h]

theorem State.autoClose_slot (i : StreamId) (k : SlotId) (s : State) :
    (s.autoClose i).slot k = (s.slot k).map fun b =>
      if b.stream = i ∧ b.st = .opened then { b with st := .closed, autoClosed := true, notify := false, tag := none }
      else b := by
  simp [State.autoClose, State.slot]

theorem State.openNew_slot (i : StreamId) (k j : SlotId) (band : Band) (pages : Nat) (s : State) :
    (s.openNew i k band pages).slot j =
      if j = k then some { st := .opened, stream := i, band := band, pages := s.bands.free.take pages, blank := false
                           damaged := false, autoClosed := false, notify := false, tag := none }
      else s.slot j := by
  simp [State.openNew, State.slot, State.mapStream, putAt_get]

/-! ## The page pool -/

/-- A slot changed without its pages keeps the pool. -/
theorem State.PoolLaw.putSlot {s : State} (h : s.PoolLaw) (k : SlotId) (x : Option BandSlot)
    (hx : x.elim [] BandSlot.pages = (s.slot k).elim [] BandSlot.pages) : (s.putSlot k x).PoolLaw := by
  have h1 := (Bands.live_putAt s.bands (s.putSlot k x).bands k x rfl).flatMap_right BandSlot.pages
  have h2 := (Bands.live_perm s.bands k).flatMap_right BandSlot.pages
  refine List.Perm.trans ?_ h
  refine (List.Perm.append_left s.bands.free ?_)
  refine h1.trans (List.Perm.trans ?_ h2.symm)
  have : (x.toList.flatMap BandSlot.pages) = ((s.bands.slots.get k).toList.flatMap BandSlot.pages) := by
    cases x <;> cases hs : s.bands.slots.get k <;> simp_all [State.slot]
  simp [List.flatMap_append, this]

/-- Freeing a slot keeps the pool (R6). -/
theorem State.PoolLaw.freeSlot {s : State} (h : s.PoolLaw) (k : SlotId) : (s.freeSlot k).PoolLaw := by
  unfold State.freeSlot
  split
  · exact h
  · next b hb =>
    have h1 := fun b' h => (Bands.live_putAt s.bands b' k none h).flatMap_right BandSlot.pages
    have h2 := (Bands.live_perm s.bands k).flatMap_right BandSlot.pages
    have hb' : s.bands.slots.get k = some b := hb
    rw [hb'] at h2
    refine List.Perm.trans ?_ h
    show ((s.bands.free ++ b.pages) ++ _).Perm _
    rw [List.append_assoc]
    refine List.Perm.append_left s.bands.free ?_
    refine List.Perm.trans ?_ h2.symm
    simpa [List.flatMap_append] using List.Perm.append_left b.pages (h1 _ rfl)

/-- Discarding a slot's contents keeps the pool (R12). -/
theorem State.PoolLaw.discardSlot {s : State} (h : s.PoolLaw) (k : SlotId) : (s.discardSlot k).PoolLaw := by
  unfold State.discardSlot
  split
  · exact h
  · next b hb =>
    have h1 := fun b' h => (Bands.live_putAt s.bands b' k
      (some { b with st := .closed, blank := true, notify := false, tag := none, pages := [] }) h).flatMap_right
        BandSlot.pages
    have h2 := (Bands.live_perm s.bands k).flatMap_right BandSlot.pages
    have hb' : s.bands.slots.get k = some b := hb
    rw [hb'] at h2
    refine List.Perm.trans ?_ h
    show ((s.bands.free ++ b.pages) ++ _).Perm _
    rw [List.append_assoc]
    refine List.Perm.append_left s.bands.free ?_
    refine List.Perm.trans ?_ h2.symm
    simpa [List.flatMap_append] using List.Perm.append_left b.pages (h1 _ rfl)

/-- Opening a band in a FREE slot keeps the pool (R5). -/
theorem State.PoolLaw.openNew {s : State} (h : s.PoolLaw) (i : StreamId) (k : SlotId) (band : Band) (pages : Nat)
    (hk : s.slot k = none) : (s.openNew i k band pages).PoolLaw := by
  have h1 := fun b' x h => (Bands.live_putAt s.bands b' k x h).flatMap_right BandSlot.pages
  have h2 := (Bands.live_perm s.bands k).flatMap_right BandSlot.pages
  have hk' : s.bands.slots.get k = none := hk
  rw [hk'] at h2
  refine List.Perm.trans ?_ h
  show (s.bands.free.drop pages ++ _).Perm _
  refine (List.Perm.append_left _ (h1 _ _ rfl)).trans ?_
  simp only [Option.toList_some, List.flatMap_append, List.flatMap_cons, List.flatMap_nil, List.append_nil]
  rw [← List.append_assoc]
  refine List.Perm.append ?_ (by simpa using h2.symm)
  exact List.perm_append_comm.trans (by rw [List.take_append_drop])

/-- Drain auto-close keeps the pool (R11). -/
theorem State.PoolLaw.autoClose {s : State} (h : s.PoolLaw) (i : StreamId) : (s.autoClose i).PoolLaw := by
  have e : ((s.autoClose i).bands.live.flatMap BandSlot.pages) = s.bands.live.flatMap BandSlot.pages := by
    simp only [State.autoClose, Bands.live, Vector.toList_map, List.filterMap_map]
    induction s.bands.slots.toList with
    | nil => rfl
    | cons o l ih =>
      cases o with
      | none => simpa using ih
      | some b =>
        have e : ∀ c : BandSlot, (if b.stream = i ∧ b.st = .opened then c else b).pages =
            if b.stream = i ∧ b.st = .opened then c.pages else b.pages := fun c => by split <;> rfl
        simp [e]; exact ih
  unfold State.PoolLaw
  rw [e]
  exact h

/-! ## All slots of a stream -/

theorem insertByKey_perm (key : SlotId → Nat) (k : SlotId) (l : List SlotId) : (insertByKey key k l).Perm (k :: l) := by
  induction l with
  | nil => rfl
  | cons h t ih =>
    simp only [insertByKey]
    split
    · rfl
    · exact (List.Perm.cons h ih).trans (List.Perm.swap k h t)

theorem foldl_insertByKey_perm (key : SlotId → Nat) (l acc : List SlotId) :
    (l.foldl (fun l k => insertByKey key k l) acc).Perm (l ++ acc) := by
  induction l generalizing acc with
  | nil => rfl
  | cons k l ih =>
    refine (ih _).trans ?_
    refine (List.Perm.append_left l (insertByKey_perm key k acc)).trans ?_
    exact List.perm_middle

/-- The slots of a stream in the order of their distances are exactly the slots that carry it (R7). -/
theorem State.slotsByDistance_perm (s : State) (i : StreamId) :
    (s.slotsByDistance i).Perm (allSlots.filter fun k => (s.slot k).any fun b => b.stream == i) := by
  simpa [State.slotsByDistance] using foldl_insertByKey_perm _ _ []

theorem State.foldl_freeSlot_slot (l : List SlotId) (s : State) (j : SlotId) :
    (l.foldl (fun s k => s.freeSlot k) s).slot j = if j ∈ l then none else s.slot j := by
  induction l generalizing s with
  | nil => simp
  | cons k l ih =>
    rw [List.foldl_cons, ih, State.freeSlot_slot]
    by_cases h1 : j ∈ l <;> by_cases h2 : j = k <;> simp [h1, h2]

/-- After all slots of a stream are freed, a slot holds what it held unless that was the stream's (R7, R17). -/
theorem State.freeAll_slot (i : StreamId) (s : State) (k : SlotId) :
    (s.freeAll i).slot k = (s.slot k).filter fun b => b.stream != i := by
  rw [State.freeAll, State.foldl_freeSlot_slot]
  have hm : k ∈ s.slotsByDistance i ↔ ∃ b, s.slot k = some b ∧ b.stream = i := by
    rw [(s.slotsByDistance_perm i).mem_iff]
    simp [allSlots, Option.any_eq_true]
  cases h : s.slot k with
  | none => simp
  | some b =>
    by_cases hb : b.stream = i
    · rw [if_pos (hm.2 ⟨b, h, hb⟩)]; simp [Option.filter, hb]
    · rw [if_neg]
      · simp [Option.filter, hb]
      · rw [hm]; rintro ⟨b', h', e⟩; rw [h] at h'; cases h'; exact hb e

/-- Freeing all slots of a stream keeps the pool (R7). -/
theorem State.PoolLaw.freeAll {s : State} (h : s.PoolLaw) (i : StreamId) : (s.freeAll i).PoolLaw := by
  unfold State.freeAll
  generalize s.slotsByDistance i = l
  induction l generalizing s with
  | nil => exact h
  | cons k l ih => exact ih (h.freeSlot k)

theorem State.foldl_freeSlot_free (l : List SlotId) (s : State) (hl : l.Nodup) :
    (l.foldl (fun s k => s.freeSlot k) s).bands.free =
      s.bands.free ++ l.flatMap fun k => (s.slot k).elim [] BandSlot.pages := by
  induction l generalizing s with
  | nil => simp
  | cons k l ih =>
    obtain ⟨h1, h2⟩ := List.nodup_cons.1 hl
    rw [List.foldl_cons, ih _ h2, State.freeSlot_free, List.append_assoc, List.flatMap_cons]
    congr 2
    refine List.flatMap_congr fun j hj => ?_
    have hne : j ≠ k := fun e => h1 (e ▸ hj)
    simp [State.freeSlot_slot, hne]

/-- Freeing all slots of a stream appends their pages, in ascending distance of their bands (R7). -/
theorem State.freeAll_free (i : StreamId) (s : State) :
    (s.freeAll i).bands.free =
      s.bands.free ++ (s.slotsByDistance i).flatMap fun k => (s.slot k).elim [] BandSlot.pages := by
  refine State.foldl_freeSlot_free _ s ?_
  exact (s.slotsByDistance_perm i).nodup_iff.2 ((List.nodup_finRange 64).filter _)

theorem State.foldl_freeSlot_mem (l : List SlotId) (s : State) :
    (l.foldl (fun s k => s.freeSlot k) s).bands.mem = s.bands.mem := by
  induction l generalizing s with
  | nil => rfl
  | cons k l ih => rw [List.foldl_cons, ih, State.freeSlot_mem]

theorem State.freeAll_mem (i : StreamId) (s : State) : (s.freeAll i).bands.mem = s.bands.mem :=
  State.foldl_freeSlot_mem _ s

end Sys2Proof.Machine
end

