-- ==== Sys2Proof/Laws/Memory.lean ====
section
/-!
SUPPORT. Band memory: a write reads back, leaves every other byte alone, and keeps the canonical form.
-/

namespace Sys2Proof.Machine

/-- A list of cells whose first address lies above `a` lists nothing at `a`. -/
theorem Memory.read_of_lt {m : List Host.Cell} {a : Nat} (h : ∀ c ∈ m, a < c.1) : Memory.read m a = 0#8 := by
  induction m with
  | nil => rfl
  | cons c m ih =>
    have hc : c.1 ≠ a := Nat.ne_of_gt (h c List.mem_cons_self)
    simp [Memory.read, hc, ih fun d hd => h d (List.mem_cons_of_mem c hd)]

/-- A write lists no address but the old ones and its own. -/
theorem Memory.mem_write {m : List Host.Cell} {a : Nat} {b : Byte} {c : Host.Cell} (h : c ∈ Memory.write m a b) :
    c ∈ m ∨ c = (a, b) := by
  induction m with
  | nil => by_cases hb : b = 0#8 <;> simp_all [Memory.write]
  | cons d m ih =>
    simp only [Memory.write] at h
    split_ifs at h <;> simp only [List.mem_cons] at h ⊢ <;> tauto

/-- What a write leaves at every address: the byte written at its own, the old byte elsewhere. -/
theorem Memory.read_write (m : List Host.Cell) (hm : Memory.wf m) (a : Nat) (b : Byte) (x : Nat) :
    Memory.read (Memory.write m a b) x = if x = a then b else Memory.read m x := by
  induction m with
  | nil =>
    by_cases hb : b = 0#8
    · simp [Memory.write, Memory.read, hb]
    · by_cases hx : x = a
      · simp [Memory.write, Memory.read, hb, hx]
      · simp [Memory.write, Memory.read, hb, hx, Ne.symm hx]
  | cons c m ih =>
    obtain ⟨hp, hz⟩ := hm
    obtain ⟨h1, h2⟩ := List.pairwise_cons.1 hp
    have ih := ih ⟨h2, fun d hd => hz d (List.mem_cons_of_mem c hd)⟩
    simp only [Memory.write]
    by_cases hlt : c.1 < a
    · have hne : c.1 ≠ a := Nat.ne_of_lt hlt
      rw [if_pos hlt]
      by_cases hx : c.1 = x
      · simp [Memory.read, hx, hx ▸ hne]
      · simp [Memory.read, hx, ih]
    · rw [if_neg hlt]
      by_cases heq : c.1 = a
      · rw [if_pos heq]
        by_cases hx : x = a
        · subst hx
          have hr : Memory.read m x = 0#8 := Memory.read_of_lt fun d hd => heq ▸ h1 d hd
          by_cases hb : b = 0#8 <;> simp [Memory.read, hb, hr]
        · have hcx : c.1 ≠ x := fun e => hx (e.symm.trans heq)
          by_cases hb : b = 0#8 <;> simp [Memory.read, hb, hx, hcx, Ne.symm hx]
      · rw [if_neg heq]
        by_cases hx : x = a
        · subst hx
          have hr : Memory.read m x = 0#8 := Memory.read_of_lt fun d hd => by
            have := h1 d hd; omega
          by_cases hb : b = 0#8 <;> simp [Memory.read, hb, hr, heq]
        · by_cases hb : b = 0#8 <;> simp [Memory.read, hb, hx, Ne.symm hx]

/-- A write keeps the canonical form. -/
theorem Memory.wf_write (m : List Host.Cell) (hm : Memory.wf m) (a : Nat) (b : Byte) : Memory.wf (Memory.write m a b) := by
  induction m with
  | nil => by_cases hb : b = 0#8 <;> simp [Memory.write, Memory.wf, hb]
  | cons c m ih =>
    obtain ⟨hp, hz⟩ := hm
    obtain ⟨h1, h2⟩ := List.pairwise_cons.1 hp
    have hm' : Memory.wf m := ⟨h2, fun d hd => hz d (List.mem_cons_of_mem c hd)⟩
    have hc := hz c List.mem_cons_self
    simp only [Memory.write]
    by_cases hlt : c.1 < a
    · rw [if_pos hlt]
      obtain ⟨i1, i2⟩ := ih hm'
      refine ⟨List.pairwise_cons.2 ⟨fun d hd => ?_, i1⟩, fun d hd => ?_⟩
      · rcases Memory.mem_write hd with hd | rfl
        · exact h1 d hd
        · exact hlt
      · rcases List.mem_cons.1 hd with rfl | hd
        · exact hc
        · exact i2 d hd
    · rw [if_neg hlt]
      by_cases heq : c.1 = a
      · rw [if_pos heq]
        by_cases hb : b = 0#8
        · rw [if_pos hb]; exact hm'
        · rw [if_neg hb]
          refine ⟨List.pairwise_cons.2 ⟨fun d hd => heq ▸ h1 d hd, h2⟩, fun d hd => ?_⟩
          rcases List.mem_cons.1 hd with rfl | hd
          · exact hb
          · exact hm'.2 d hd
      · rw [if_neg heq]
        by_cases hb : b = 0#8
        · rw [if_pos hb]; exact ⟨hp, hz⟩
        · rw [if_neg hb]
          refine ⟨List.pairwise_cons.2 ⟨fun d hd => ?_, hp⟩, fun d hd => ?_⟩
          · rcases List.mem_cons.1 hd with rfl | hd
            · show a < d.1; omega
            · have := h1 d hd; show a < d.1; omega
          · rcases List.mem_cons.1 hd with rfl | hd
            · exact hb
            · exact hz d hd

/-- Several writes keep the canonical form. -/
theorem Memory.wf_writeAll (cells m : List Host.Cell) (hm : Memory.wf m) : Memory.wf (Memory.writeAll m cells) := by
  induction cells generalizing m with
  | nil => exact hm
  | cons c cells ih => exact ih _ (Memory.wf_write m hm c.1 c.2)

/-- Several writes list no address but the old ones and their own. -/
theorem Memory.mem_writeAll {cells m : List Host.Cell} {c : Host.Cell} (h : c ∈ Memory.writeAll m cells) :
    c ∈ m ∨ c ∈ cells := by
  induction cells generalizing m with
  | nil => exact .inl h
  | cons d cells ih =>
    rcases ih h with h | h
    · rcases Memory.mem_write h with h | h
      · exact .inl h
      · exact .inr (by rw [h]; exact List.mem_cons_self)
    · exact .inr (List.mem_cons_of_mem d h)

/-- Several writes leave every address that is not theirs alone. -/
theorem Memory.read_writeAll_other (cells m : List Host.Cell) (hm : Memory.wf m) (a : Nat) (h : ∀ c ∈ cells, c.1 ≠ a) :
    Memory.read (Memory.writeAll m cells) a = Memory.read m a := by
  induction cells generalizing m with
  | nil => rfl
  | cons c cells ih =>
    have hc : a ≠ c.1 := fun e => h c List.mem_cons_self e.symm
    refine (ih (Memory.write m c.1 c.2) (Memory.wf_write m hm c.1 c.2) fun d hd => h d (List.mem_cons_of_mem c hd)).trans ?_
    rw [Memory.read_write m hm, if_neg hc]

/-- Several writes to different addresses each read back. -/
theorem Memory.read_writeAll_mem (cells m : List Host.Cell) (hm : Memory.wf m)
    (hn : (cells.map Prod.fst).Nodup) (c : Host.Cell) (h : c ∈ cells) :
    Memory.read (Memory.writeAll m cells) c.1 = c.2 := by
  induction cells generalizing m with
  | nil => cases h
  | cons d cells ih =>
    obtain ⟨h1, h2⟩ := List.nodup_cons.1 hn
    have hw := Memory.wf_write m hm d.1 d.2
    rcases List.mem_cons.1 h with rfl | h
    · refine (Memory.read_writeAll_other cells _ hw c.1 fun e he e1 => h1 ?_).trans ?_
      · rw [← e1]; exact List.mem_map_of_mem he
      · rw [Memory.read_write m hm, if_pos rfl]
    · exact ih _ hw h2 h

/-- The memory after power-on has the canonical form. -/
theorem Memory.wf_reset : Memory.wf State.reset.bands.mem := by simp [State.reset, Memory.wf]

/-- A row write keeps the canonical form of band memory (R78). -/
theorem Op.writeRow_wf (op : Op) (b : Bands) (h : Memory.wf b.mem) : Memory.wf (op.writeRow b).mem :=
  Memory.wf_writeAll _ _ h

/-- A row write changes band memory alone (R78). -/
theorem Op.writeRow_frame (op : Op) (b : Bands) : (op.writeRow b).slots = b.slots ∧ (op.writeRow b).free = b.free :=
  ⟨rfl, rfl⟩

end Sys2Proof.Machine
end

