-- ==== Sys2Proof/Tests/Slice0.lean ====
section
/-!
SUPPORT. Tests of the model: the checks of WellFormed, values the spec works out, and, for each statement with hypotheses,
states that meet them.
-/

namespace Sys2Proof.Tests

-- One theorem at a time: each kernel evaluation waits for the declarations before it, and a thread for each is too many.
set_option Elab.async false

open Sys2Proof.Machine

/-! ## WellFormed refuses an ill-formed term at each check -/

/-- CONTROL is a row of its own (R157). -/
theorem test_illFormed_registerWrite_ownRow : (Instr.registerWrite 0x004#12 4 0#32).wellFormed = false := by decide
/-- A write of any size but 32 bits is a REGISTER_WRITE at any offset, and is ignored (R157, log 24). -/
theorem test_registerWrite_other_sizes :
    (∀ n ∈ [0, 1, 2, 3, 8, 16], (Instr.registerWrite 0x004#12 n 1#32).wellFormed = true) ∧
      exec (.registerWrite 0x00C#12 3 1#32) State.reset = .next State.reset :=
  ⟨by decide, rfl⟩
/-- An enable that sets nothing is no event (R168). -/
theorem test_illFormed_enable : (Instr.configBusMasterEnable false false).wellFormed = false := by decide
/-- A disable that clears nothing is no event (R168). -/
theorem test_illFormed_disable : (Instr.configBusMasterDisable false false).wellFormed = false := by decide
/-- A good completion carries data (R169). -/
theorem test_illFormed_readCompletion : (Instr.readCompletion 0 0 [] true).wellFormed = false := by decide
/-- A grant of 0 is a bad frame (R97). -/
theorem test_illFormed_credit : (Instr.credit 0 0#8).wellFormed = false := by decide
/-- A good ACCEPT is no bad frame (R97). -/
theorem test_illFormed_badFrame : (Instr.badFrame 0 (withCheck [0x81#8, 0#8])).wellFormed = false := by decide +kernel
/-- Queue id 7 is the completion ring's (R142). -/
theorem test_illFormed_unusedQueue : (Instr.notifyUnusedQueue 7#8 0#16).wellFormed = false := by decide
/-- Queue ids 5 and 6 are unused (R142). -/
theorem test_wellFormed_unusedQueue :
    (Instr.notifyUnusedQueue 5#8 0#16).wellFormed = true ∧ (Instr.notifyUnusedQueue 6#8 0#16).wellFormed = true := by decide

/-! ## Values the spec works out -/

/-- The nine bytes "123456789" (R98). -/
theorem test_crc32_check : crc32 [0x31, 0x32, 0x33, 0x34, 0x35, 0x36, 0x37, 0x38, 0x39] = 0xCBF43926#32 := by decide +kernel

/-- The same nine bytes under the parameters of R95; the value is the published one of the CRC-16 with these parameters
(XMODEM). -/
theorem test_crc16_check : crc16 [0x31, 0x32, 0x33, 0x34, 0x35, 0x36, 0x37, 0x38, 0x39] = 0x31C3#16 := by decide +kernel

/-- A TRAILER sends its CRC-32 most significant byte first (9.7). -/
theorem test_trailer_byte_order :
    (frameBytes { mem := [], free := [], slots := Vector.replicate 64 none } 2 Lane.initial
      { frame := .trailer 3 0xCBF43926#32, seq := 1#2, begun := true, paused := false, timer := false }).take 8 =
      [0x04, 0x01, 0x00, 0x03, 0xCB, 0xF4, 0x39, 0x26] := by decide

/-- The SYNC of lane 2 with chunk size 256 (9.7, example). -/
theorem test_sync_bytes :
    (frameBytes { mem := [], free := [], slots := Vector.replicate 64 none } 2 Lane.initial
      { frame := .sync 256, seq := 0#2, begun := true, paused := false, timer := false }).take 4 =
      [0x01, 0x00, 0x02, 0x00] := by decide

/-- The HEADER of band 7: 16 bytes with these fields (9.7, example). -/
theorem test_header_bytes :
    let bytes := frameBytes { mem := [], free := [], slots := Vector.replicate 64 none } 2 Lane.initial
      { frame := .header 7#16 5 128 1 false false false 640, seq := 1#2, begun := true, paused := false, timer := false }
    bytes.length = 16 ∧ bytes.take 14 =
      [0x02, 0x01, 0x00, 0x07, 0x00, 0x05, 0x00, 0x80, 0x01, 0x00, 0x00, 0x00, 0x02, 0x80] := by decide

/-- The area of the PLACE of 4.7: x −5, y 60, w 20, h 10 on a band of 4096 by 64. -/
theorem test_place_area : clipRect (-5) 60 20 10 4096 64 = { c0 := 0, c1 := 15, r0 := 60, r1 := 64 } := by decide

/-- A width of 4096 at depth 2 and a height of 64 take two pages (1.8). -/
theorem test_pages_per_band :
    ({ width := 4096, height := 64, depth := 2, quota := 6, window := 2, chunkSize := 1024, replyLimit := 100
       resendLimit := 2, waitInterval := 20, waitLimit := 3, starveLimit := 0 } : StreamCfg).pages = 2 := by decide

/-- 640 bytes in chunks of 256 are 3 chunks, the last of 128 bytes (5.7). -/
theorem test_chunks : chunkCount 640 256 = 3 ∧ chunkLength 640 256 3 2 = 128 ∧ chunkLength 640 256 3 1 = 256 := by decide

/-! ## Small states -/

/-- A record of 64 bytes, zero but for the listed ones. -/
def tRecord (l : List (Nat × Byte)) : List Byte := (List.range 64).map fun i => (l.lookup i).getD 0#8

/-- A ring of 16 with one record submitted. -/
def tRing : Ring := { base := 0x1000#64, size := 16, head := 0, tail := 1 }

/-- An empty completion ring of 16. -/
def tComp : CompRing := { base := 0x2000#64, size := 16, write := 0, release := 0, phase := true }

/-- A band of 32 by 1 at depth 1: one page. -/
def tCfg : StreamCfg :=
  { width := 32, height := 1, depth := 1, quota := 4, window := 2, chunkSize := 256, replyLimit := 2, resendLimit := 1
    waitInterval := 1, waitLimit := 1, starveLimit := 1 }

/-- The system port of an ATTACHED part. -/
def tPort : Port :=
  { Port.initial with part := .attached, busMaster := true, messages := true, linkUp := true, readLimit := some 1 }

/-- The ring unit of an ATTACHED part. -/
def tRings : RingUnit :=
  { RingUnit.initial with
    admin := some tRing, comp := some tComp
    coalesce := some { count := 2, time := 1, counter := 0, timer := false } }

/-- An ATTACHED part with nothing configured. -/
def tPart : State := { State.reset with port := tPort, ring := tRings }

/-- A RUNNING stream with one record submitted. -/
def tRunning : Stream := { Stream.initial with st := .running, cfg := some tCfg, ring := some tRing }

/-- The part with stream 0 as given. -/
def tWith (x : Stream) : State := tPart.setStream 0 x

/-- The slot of band 0 of stream 0, with page 0. -/
def tSlot (st : SlotState) : BandSlot :=
  { st := st, stream := 0, band := 0#16, pages := [0], blank := false, damaged := false, autoClosed := false, notify := true
    tag := some 5#32 }

/-- Band 0 of stream 0 live in slot 0, in state `st`. -/
def tLive (x : Stream) (st : SlotState) : State :=
  { tWith { x with nextOpen := 1#16 } with
    bands := { mem := [(0, 1#8)], free := (List.finRange 64).drop 1, slots := putAt (Vector.replicate 64 none) 0 (some (tSlot st)) } }

/-- The working parameters of tCfg. -/
def tParams : LaneParams :=
  { chunkSize := 256, replyLimit := 2, resendLimit := 1, waitInterval := 1, waitLimit := 1, starveLimit := 1 }

/-- A lane in state `st` with the working parameters and one credit. -/
def tLane (st : LaneState) : Lane := { Lane.initial with state := st, params := some tParams, credit := 1, seq := 1#2 }

/-- The sending progress of band 0 in slot 0. -/
def tProgress (phase : Phase) : Progress := { band := 0#16, slot := 0, phase := phase, count := 1, next := 0 }

/-- A frame outstanding under seq 1, its transmission ended. -/
def tOut (f : Frame) : Outstanding := { frame := f, seq := 1#2, begun := true, paused := false, timer := true }

/-- The HEADER of the band of tCfg. -/
def tHeader (blank : Bool) : Frame := .header 0#16 1 4 1 blank false false 4

/-- `tLive` has one slot that is not FREE. -/
theorem tLive_slot (x : Stream) (st : SlotState) (k : SlotId) (b : BandSlot) (h : (tLive x st).slot k = some b) :
    k = 0 ∧ b = tSlot st := by
  simp only [tLive, State.slot, putAt_get, get_replicate] at h
  split at h
  · exact ⟨‹_›, (Option.some.inj h).symm⟩
  · cases h

/-! ## Witnesses: the queue of commands and the laws -/

/-- A state for the statements about every step: band 0 OPEN, one lane event in the queue, a command that waits. -/
def tLaws : State :=
  let s := tLive tRunning .opened
  { s with ring := { s.ring with queue := [laneEntry 0 .synced] }, pending := [.drainAutoClose 0, .entryAdmission] }

theorem test_witness_step : tLaws.pending = .drainAutoClose 0 :: [.entryAdmission] ∧ State.reset.pending = [] :=
  ⟨rfl, rfl⟩

theorem test_witness_next : ∃ t, step tLaws = .next t := ⟨_, rfl⟩

theorem test_witness_poolLaw : tLaws.PoolLaw := by
  unfold State.PoolLaw
  decide +kernel

theorem test_witness_memoryLaw : tLaws.MemoryLaw := by
  refine ⟨by decide, ?_⟩
  intro c h
  simp only [tLaws, tLive, List.mem_singleton] at h
  subst h
  decide

theorem test_witness_queueLaw : tLaws.QueueLaw := by
  refine ⟨by decide, by decide, ?_, ?_⟩
  · intro e h; cases h
  · intro e i h; rcases h with h | h <;> cases h

theorem test_witness_bandLaws : tLaws.BandLaws := by
  have hs : ∀ k b, tLaws.slot k = some b → k = 0 ∧ b = tSlot .opened := tLive_slot tRunning .opened
  have hemit : ∀ i, (tLaws.stream i).emits = true → i = 0 := by decide
  have hidle : ∀ i, ((tLaws.stream i).st = .unconfigured ∨ (tLaws.stream i).st = .ready ∨
      (tLaws.stream i).pastBands = true) → i ≠ 0 := by decide
  have hab : ∀ i, (tLaws.stream i).dabort = none := by decide
  constructor
  · intro k b h
    obtain ⟨rfl, rfl⟩ := hs k b h
    decide
  · intro k k' b b' h h' _ _
    rw [(hs k b h).1, (hs k' b' h').1]
  · intro k b h hst
    obtain ⟨rfl, rfl⟩ := hs k b h
    cases hst
  · intro i hi n hn
    obtain rfl := hemit i hi
    have : n = 0 := by
      have : bandDist (tLaws.stream 0).nextOpen (tLaws.stream 0).nextEmit = 1 := by decide
      omega
    subst this
    exact ⟨0, tSlot .opened, rfl, rfl, by decide⟩
  · intro i hi k b h
    obtain ⟨rfl, rfl⟩ := hs k b h
    exact fun e => hidle i hi e.symm
  · intro i d h
    rw [hab i] at h; cases h

/-- Stream 0 holds one page of its quota of 4 and one OPEN slot of its window of 2; no other stream is configured. -/
theorem test_witness_holdLaw : tLaws.HoldLaw := by
  intro i c h
  have hc : ∀ i, (tLaws.stream i).cfg = none ∨ (tLaws.stream i).cfg = some tCfg := by decide
  have hp : ∀ i, tLaws.pagesHeld i ≤ tCfg.quota ∧ tLaws.openCount i ≤ tCfg.window := by decide +kernel
  rcases hc i with e | e <;> rw [e] at h
  · cases h
  · cases (Option.some.inj h)
    exact hp i

theorem test_witness_ringQuotaCredit : tLaws.RingLaw ∧ tLaws.QuotaLaw ∧ tLaws.CreditLaw := by
  refine ⟨⟨?_, ?_, ?_⟩, by unfold State.QuotaLaw; decide, by unfold State.CreditLaw; decide⟩
  · intro r h
    cases (Option.some.inj h)
    exact ⟨by decide, by decide, by decide⟩
  · intro c h
    cases (Option.some.inj h)
    exact ⟨by decide, by decide, by decide⟩
  · intro i r h
    have : ∀ i, (tLaws.stream i).ring = none ∨ (tLaws.stream i).ring = some tRing := by decide
    rcases this i with e | e <;> rw [e] at h
    · cases h
    · cases (Option.some.inj h)
      exact ⟨by decide, by decide, by decide⟩

/-- Stream 0 holds the record at its ring's head, and every other latch is EMPTY. -/
theorem test_witness_latchLaw :
    let s := tWith { tRunning with latch := .held 0 [] .good }
    s.LatchLaw ∧ s.AbortLaw ∧ (s.stream 0).latch ≠ .empty ∧ (s.stream 0).ring = some tRing ∧ tRing.head ≠ tRing.tail ∧
      State.reset.LatchLaw ∧ tLaws.AbortLaw := by
  refine ⟨fun i h => ?_, fun i d h => ?_, by decide, rfl, by decide, fun i h => ?_, fun i d h => ?_⟩
  · have : ∀ i, ((tWith { tRunning with latch := .held 0 [] .good }).stream i).latch ≠ .empty → i = 0 := by decide
    obtain rfl := this i h
    exact ⟨rfl, tRing, rfl, rfl, by decide⟩
  · have : ∀ i, ((tWith { tRunning with latch := .held 0 [] .good }).stream i).dabort = none := by decide
    rw [this i] at h; cases h
  · have : ∀ i, (State.reset.stream i).latch = .empty := by decide
    exact absurd (this i) h
  · have : ∀ i, (tLaws.stream i).dabort = none := by decide
    rw [this i] at h; cases h

theorem test_witness_isolation :
    laneOf (.credit 1 1#8) = some 1 ∧ (0 : StreamId) ≠ 1 ∧ ∃ t, exec (.credit 1 1#8) tLaws = .next t := by
  exact ⟨rfl, by decide, _, rfl⟩

/-- The part with stream 0's latch holding the record `bs` of ring index 0. -/
def tHand (bs : List Byte) (x : Stream) : State := tWith { x with latch := .held 0 bs (checkRecord 1 bs) }

theorem test_witness_handOver_isolation :
    let s := tHand (tRecord [(0, 0x07)]) tRunning
    kindRow .mark = .mark ∧ s.handOverChoice = some 0 ∧ (1 : StreamId) ≠ 0 ∧ ∃ t, exec .mark s = .next t :=
  ⟨rfl, by decide, by decide, _, rfl⟩

/-- Both sides of the arbiters' statement hold: stream 0 has a fault to hand over, stream 1 a record to fetch. -/
theorem test_witness_arbiters :
    let s := (tWith { tRunning with latch := .faulted 0 }).setStream 1 tRunning
    s.handOverChoice = some 0 ∧ s.fetchChoice = some 1 := by decide

/-! ## Witnesses: checks, counts and dots -/

/-- The CRC-16 of a frame whose check is wrong. -/
theorem test_witness_badCheck : crc16 [0x81, 0x00, 0x00, 0x01] ≠ 0#16 := by decide +kernel

/-- A tail with an IDLE admin unit, and one off the head with a command taken. -/
theorem test_witness_rings :
    (tRing.head < tRing.size ∧ tRing.tail < tRing.size ∧ 15 < tRing.size) ∧ tPart.port.part = .attached ∧
      (15#16).toNat < tRing.size ∧ tPart.ring.admin = some tRing ∧ ((tWith tRunning).stream 0).st ≠ .unconfigured ∧
      ((tWith tRunning).stream 0).ring = some tRing ∧ tComp.write < tComp.size ∧ tComp.release < tComp.size ∧
      tPart.admin = .idle ∧ (15#16).toNat ≠ tRing.head := by
  decide

/-- The fill of dots 3 to 31 of the band of tCfg with value 1. -/
def tFill : Op :=
  { kind := .fillRect { x := 3, y := 0, w := 29, h := 1 } 1#2 .xor, stream := 0, index := 0, tag := 0#32, notify := true
    entryKind := 2#8, entryHead := 1
    slot := 0, band := 0#16, width := 32, height := 1, depth := 1, area := { c0 := 3, c1 := 32, r0 := 0, r1 := 1 }
    rowsDone := 0, fault := false, readsOut := 0, rowData := [] }

theorem test_witness_rowWrite :
    let b := (tLive tRunning .opened).bands
    Memory.wf b.mem = true ∧ b.slots.get tFill.slot = some (tSlot .opened) ∧ (tSlot .opened).pages.Nodup ∧ tFill.width % 32 = 0 ∧
      tFill.height * tFill.lineBytes ≤ (tSlot .opened).pages.length * Config.pageBytes ∧ tFill.area.c1 ≤ tFill.width ∧
      tFill.area.c0 < tFill.area.c1 ∧ tFill.line < tFill.height :=
  ⟨by decide, rfl, by decide, by decide, by decide, by decide, by decide, by decide⟩

theorem test_witness_rowWrite_source (b : Bands) (x : Nat) : (tFill.source b x tFill.line).toNat < 2 ^ tFill.depth := by
  show (1#2).toNat < 2 ^ 1
  decide

/-! ## Witnesses: resets, attach, detach, the register window -/

/-- The part in another part state. -/
def tPortState (ps : PartState) : State := { tPart with port := { tPort with part := ps } }

/-- A DETACHED part whose context address is `lo`. -/
def tDetached (lo : BitVec 32) (bm : Bool) : State :=
  { State.reset with port := { Port.initial with contextLo := lo, busMaster := bm, linkUp := true } }

/-- ATTACH at a multiple of 64, with and without bus mastering, and at an address that is none; ATTACH in ATTACHED. -/
theorem test_witness_attach :
    (let s := tDetached 0x40#32 true
     s.port.part = .detached ∧ (s.port.contextHi ++ s.port.contextLo).toNat % 64 = 0 ∧ s.port.busMaster = true ∧
       s.port.linkUp = true) ∧
    (let s := tDetached 0x40#32 false
     s.port.part = .detached ∧ (s.port.contextHi ++ s.port.contextLo).toNat % 64 = 0 ∧ s.port.busMaster = false) ∧
    (let s := tDetached 0x3F#32 true
     s.port.part = .detached ∧ (s.port.contextHi ++ s.port.contextLo).toNat % 64 ≠ 0) ∧ tPart.port.part ≠ .detached := by
  decide

theorem test_witness_attachCancel :
    let s (c : Bool) (w : List LinkAsk) : State :=
      { tPart with port := { tPort with part := .attaching, cancelled := c, waiting := w } }
    ((s false []).port.part = .attaching ∧ (s false []).port.cancelled = false ∧
      (s false []).port.waiting.any LinkAsk.isContext = false) ∧
    (let w := s false [.read .attach 0x40#64 128]
     w.port.cancelled = false ∧ w.port.waiting.any LinkAsk.isContext = true) ∧ (s true []).port.cancelled = true := by
  decide

/-- DETACH with a SENDING lane and an IDLE lane, in ATTACHED and in FATAL. -/
theorem test_witness_detach :
    tPart.port.part = .attached ∧ (tPortState .fatal).port.part = .fatal ∧
    (let s := (tWith tRunning).setLane 0 (tLane .sending)
     (s.stream 0).st ≠ .unconfigured ∧ (s.lane 0).state = .sending) ∧
    (let s := (tWith tRunning).setLane 0 (tLane .idle)
     (s.stream 0).st ≠ .unconfigured ∧ (s.lane 0).state ≠ .sending ∧ (s.lane 0).state ≠ .cancelling) := by
  decide

theorem test_witness_detachEnd :
    (let s := tPortState .detaching
     s.port.part = .detaching ∧ (∀ i, (s.lane i).state = .offline) ∧ s.port.outstanding = []) ∧
    tPart.port.part ≠ .detaching := by
  decide

/-- A tail that stays off the head, one that meets it, at the ends of the ring. -/
theorem test_witness_tails :
    tPart.port.part = .attached ∧ (15#16).toNat < tRing.size ∧ tPart.ring.admin = some tRing ∧ (15#16).toNat ≠ tRing.head ∧
    (0#16).toNat = tRing.head ∧
    (let s := tWith { tRunning with latch := .faulted 0 }
     (s.stream 0).st ≠ .unconfigured ∧ (s.stream 0).ring = some tRing ∧ (s.stream 0).latch ≠ .empty) ∧
    ((tWith tRunning).stream 0).latch = .empty := by
  decide

theorem test_witness_rejected :
    (usedQueue 5#8 = false ∧ usedQueue 6#8 = false ∧ usedQueue 8#8 = false) ∧ (tPortState .fatal).port.part ≠ .attached ∧
    (tPart.stream 3).st = .unconfigured ∧ tRing.size ≤ (16#16).toNat ∧ tPart.ring.admin = some tRing := by
  decide

/-- The part with 15 entries written and not released, and one that waits. -/
def tFull : State :=
  { tPart with ring := { tRings with comp := some { tComp with write := 9, release := 10 }, queue := [laneEntry 0 .synced] } }

/-- 7.8: with 15 entries unreleased, index 13 is valid, and so is 9, which releases all. -/
theorem test_witness_release :
    tFull.port.part = .attached ∧ tFull.ring.comp = some { tComp with write := 9, release := 10 } ∧
    (((13 : Int) - 10) % 16 ≤ ((9 : Int) - 10) % 16 ∧ ((9 : Int) - 10) % 16 ≤ ((9 : Int) - 10) % 16) ∧ (13 : Nat) ≠ 10 ∧
    tFull.ring.queue = [laneEntry 0 .synced] ∧ .entry ∉ tFull.port.waiting ∧ tFull.port.busMaster = true ∧
    tFull.port.linkUp = true := by
  decide

/-- With room left an index one past the write position is too far (7.8: (2 − 10) mod 16 = 8 entries unreleased). -/
theorem test_witness_release_rejected :
    (2 < 16 ∧ 10 < 16) ∧ ((2 : Int) - 10) % 16 < ((3 : Int) - 10) % 16 ∧ tComp.room = true ∧ tComp.size ≤ (16#16).toNat := by
  decide

/-- The windows' values: RESET, ATTACH, neither; queue ids 0, 4, 7 and 5; a size and an offset without effect. -/
theorem test_witness_window :
    ((2#32).getLsbD 1 = true ∧ (1#32).getLsbD 1 = false ∧ (1#32).getLsbD 0 = true ∧ (0#32).getLsbD 0 = false) ∧
    ((0x0000#32).extractLsb' 16 8 = (0#8) ∧ ((0x40000#32).extractLsb' 16 8).toNat = (3 : StreamId).val + 1 ∧
      (0x70000#32).extractLsb' 16 8 = (7#8) ∧ usedQueue ((0x50000#32).extractLsb' 16 8) = false) ∧ (2 : Nat) ≠ 4 := by
  decide

/-- Two reads wait. -/
theorem test_witness_waitingReads :
    let l : List (Requester × BitVec 64 × Nat) := [(.admin, 0x1000#64, 64), (.fetch, 0x2000#64, 64)]
    let p : Port := { tPort with waiting := l.map fun x => .read x.1 x.2.1 x.2.2 }
    let s : State := { tPart with port := { p with busMaster := false } }
    s.port.waiting = l.map (fun x => .read x.1 x.2.1 x.2.2) ∧ ((s.port.busMaster || true) && s.port.linkUp) = true ∧
    s.port.busMaster = false ∧ p.busMaster = true ∧
    (((State.reset.port.busMaster || true) && State.reset.port.linkUp) = false) := by
  decide

/-- The part with the list `w` waiting, one entry in the queue, and a snapshot's completion to come. -/
def tWaiting (w : List LinkAsk) (bm up : Bool) : State :=
  { tPart with
    port := { tPort with waiting := w, busMaster := bm, linkUp := up }
    ring := { tRings with queue := [laneEntry 0 .synced] }
    admin := .awaiting { laneEntry 0 .synced with source := 0#8 } (some 0) }

/-- What waits in turn: a list of every sort, an entry alone, a snapshot alone; each of the two events that issue it. -/
theorem test_witness_waiting (w : List LinkAsk)
    (h : w = [.message, .read .fetch 0x1000#64 64, .snapshot 0x40#64 [1#8], .entry] ∨ w = [.entry] ∨
      w = [.snapshot 0x40#64 [1#8]]) :
    (tWaiting w false true).port.waiting = w ∧ w.count .entry ≤ 1 ∧ (tWaiting w false true).ring.queue ≠ [] ∧
      (((tWaiting w false true).port.busMaster || true) && (tWaiting w false true).port.linkUp) = true ∧
      (tWaiting w true false).port.busMaster = true ∧
      (((tWaiting w false false).port.busMaster || true) && (tWaiting w false false).port.linkUp) = false ∧
      (tWaiting w false true).port.part = .attached ∧ (tWaiting w false true).ring.comp = some tComp ∧
      (tComp.write + 1) % tComp.size ≠ tComp.release ∧
      (tWaiting w false true).admin = .awaiting { laneEntry 0 .synced with source := 0#8 } (some 0) := by
  refine ⟨rfl, ?_, List.cons_ne_nil _ _, rfl, rfl, rfl, rfl, rfl, by decide, rfl⟩
  rcases h with rfl | rfl | rfl <;> decide

/-! ## Witnesses: host reads -/

/-- One read of two bytes outstanding, asked for by `who`. -/
def tReq (who : Requester) : ReadReq :=
  { id := 7, who := who, addr := 0x1000#64, len := 2, limit := 1, got := [none, none], lost := false }

/-- `s` with that read outstanding. -/
def tReading (who : Requester) (s : State) : State := { s with port := { s.port with outstanding := [tReq who] } }

/-- What a completion leaves missing, and what it finishes. -/
theorem test_witness_fill (who : Requester) :
    ((tReq who).fill 0 [1#8]).whole = none ∧ ((tReq who).fill 0 [1#8, 2#8]).whole = some [1#8, 2#8] ∧
      (tReq who).lost = false :=
  ⟨rfl, rfl, rfl⟩

/-- A fetch read of stream 0 outstanding, dropped or not. -/
def tFetching (dropped : Bool) : State :=
  tReading .fetch { tWith { tRunning with latch := .fetching 0 } with
    intake := { Intake.initial with fetchRead := some { stream := 0, index := 0, dropped := dropped } } }

theorem test_witness_recordRead (d : Bool) :
    (tFetching d).port.request 7 = some (tReq .fetch) ∧ (tFetching d).port.request 8 = none ∧
      (tFetching d).port.part = .attached ∧ (tFetching d).intake.fetchRead = some { stream := 0, index := 0, dropped := d } ∧
      ((tFetching d).stream 0).latch = .fetching 0 ∧ ((tFetching d).stream 0).cfg = some tCfg :=
  ⟨rfl, rfl, rfl, rfl, rfl, rfl⟩

theorem test_witness_adminRead :
    let s := tReading .admin { tPart with admin := .fetching }
    s.port.request 7 = some (tReq .admin) ∧ s.port.part = .attached ∧ s.admin = .fetching ∧ s.ring.admin = some tRing :=
  ⟨rfl, rfl, rfl, rfl⟩

/-- A read by any requester finishes in FATAL and in DETACHING; one by a FETCHING admin unit; one that a link loss cut off. -/
theorem test_witness_frozenRead (who : Requester) :
    let s (ps : PartState) : State :=
      { tReading who { tPart with admin := .fetching } with port := { tPort with part := ps, outstanding := [tReq who] } }
    let lost : ReadReq := { tReq who with lost := true }
    let u : State := { tPart with port := { tPort with outstanding := [lost] } }
    (s .fatal).port.request 7 = some (tReq who) ∧ (s .fatal).port.part = .fatal ∧
      (s .detaching).port.request 7 = some (tReq who) ∧ (s .detaching).port.part = .detaching ∧ (tReq who).lost = false ∧
      (s .detaching).admin = .fetching ∧ ((tReq who).fill 0 [1#8, 2#8]).whole ≠ none ∧ u.port.request 7 = some lost :=
  ⟨rfl, rfl, rfl, rfl, rfl, rfl, Option.some_ne_none _, rfl⟩

/-- A valid context block: sizes 16 and 4096, a read limit of 1, a count of 64. -/
def tContext : List Byte :=
  (List.range 128).map fun i => ([(16, 16#8), (19, 16#8), (20, 1#8), (21, 64#8)].lookup i).getD 0#8

theorem test_context_codes :
    contextCode tContext = .none ∧ contextCode (tContext.set 127 1#8) = .reserved ∧
      contextCode (tContext.set 0 32#8) = .adminRing ∧ contextCode (tContext.set 8 32#8) = .completionRing ∧
      contextCode (tContext.set 20 0#8) = .readLimit ∧
      contextCode (tContext.set 21 65#8) = .coalesce := by
  decide +kernel

/-- The context read of 128 bytes, none of them there yet. -/
def tContextReq : ReadReq :=
  { id := 7, who := .attach, addr := 0x40#64, len := 128, limit := 255, got := List.replicate 128 none, lost := false }

theorem test_witness_contextRead (c : Bool) :
    let s : State := { State.reset with port := { tPort with part := .attaching, cancelled := c, outstanding := [tContextReq] } }
    s.port.request 7 = some tContextReq ∧ tContextReq.lost = false ∧ s.port.part = .attaching ∧ s.port.cancelled = c ∧
      (tContextReq.fill 0 tContext).whole = some tContext ∧ contextCode tContext = .none := by
  refine ⟨rfl, rfl, rfl, rfl, by decide +kernel, by decide +kernel⟩

/-- The same read, cut off by a link loss. -/
theorem test_witness_contextRead_lost (c : Bool) :
    let q : ReadReq := { tContextReq with lost := true }
    let s : State := { State.reset with port := { tPort with part := .attaching, cancelled := c, outstanding := [q] } }
    s.port.request 7 = some q ∧ q.lost = true ∧ q.who = .attach ∧ s.port.part = .attaching ∧ s.port.cancelled = c :=
  ⟨rfl, rfl, rfl, rfl, rfl⟩

/-- A PLACE of `rows` rows with reads outstanding, marked by a fault or not. -/
def tPlace (reads rows : Nat) (fault : Bool) : Op :=
  { tFill with
    kind := .place { x := 0, y := 0, w := 16, h := rows } 0x1000#64 2 1 1#2 .replace, entryKind := 3#8
    area := { c0 := 0, c1 := 16, r0 := 0, r1 := rows }, fault := fault, readsOut := reads, rowData := [0#8, 0#8] }

/-- The last row and one before it; a marked op; an op of an ABORTING stream. -/
theorem test_witness_placeRead (reads rows : Nat) (fault : Bool) :
    let s (x : Stream) : State := tReading (.raster 0) { tLive x .opened with raster := .executing (tPlace reads rows fault) }
    let aborting : Stream := { tRunning with st := .aborting, abortAt := some .op }
    (s tRunning).port.request 7 = some (tReq (.raster 0)) ∧ (s tRunning).port.part = .attached ∧
      (s tRunning).raster = .executing (tPlace reads rows fault) ∧ (tPlace reads rows fault).fault = fault ∧
      (tPlace reads rows fault).readsOut = reads ∧ (tPlace reads rows fault).notify = true ∧
      (tPlace reads 1 fault).area.isEmpty = false ∧ (tPlace reads 2 fault).area.isEmpty = false ∧
      (tPlace reads 2 fault).rowsDone + 1 < 2 - 0 ∧ 1 - 0 ≤ (tPlace reads 1 fault).rowsDone + 1 ∧
      ((s tRunning).stream 0).takesRecords = true ∧ ((s tRunning).stream 0).st ≠ .aborting ∧
      ((s aborting).stream 0).st = .aborting :=
  ⟨rfl, rfl, rfl, rfl, rfl, rfl, rfl, rfl, Nat.one_lt_two, Nat.le_refl 1, rfl, StreamState.noConfusion, rfl⟩

theorem test_witness_fetches :
    tPart.ring.admin = some tRing ∧ tPart.port.part = .attached ∧ tPart.admin = .idle ∧ tRing.head ≠ tRing.tail ∧
      (tWith tRunning).fetchChoice = some 0 ∧ ((tWith tRunning).stream 0).ring = some tRing ∧ tPart.fetchChoice = none ∧
      Requester.fetch ≠ .attach := by
  decide

/-! ## Witnesses: admin commands -/

/-- The admin ring once the record at index 0 is consumed. -/
def tPast : Ring := { tRing with head := 1 }

/-- The admin unit of `s` holds the record `bs` of index 0. -/
def tHolds (bs : List Byte) (s : State) : State :=
  { s with admin := .fetched bs 0 false, ring := { s.ring with admin := some tRing } }

/-- The admin unit holds the record `bs`; stream 0 and lane 0 as given. -/
def tCommand (bs : List Byte) (x : Stream) (l : Lane) : State := tHolds bs ((tWith x).setLane 0 l)

theorem tCommand_has (bs : List Byte) (x : Stream) (l : Lane) : (tCommand bs x l).HasCommand bs 0 tPast :=
  ⟨rfl, tRing, false, rfl, rfl, rfl⟩

/-- A stream in state `st`, configured. -/
def tStream (st : StreamState) : Stream := { tRunning with st := st }

/-- CONFIGURE_STREAM for stream 0: 32 by 1 at depth 1, window 2, with the given quota. -/
def tConfigure (quota : Byte) : List Byte :=
  tRecord [(0, 0x10), (10, 1), (16, 16), (18, 32), (20, 1), (22, 1), (23, quota), (24, 2), (27, 1), (28, 2), (30, 1), (31, 1),
    (32, 1), (34, 1)]

/-- Each refusal of R30 is reached: an unknown code, stream 4, a state, a reserved byte. -/
theorem test_witness_refused :
    rowTakes (tRecord [(0, 0x18)]) = .unknownCommand ∧
    (rowTakes (tRecord [(0, 0x12), (1, 4)]) ≠ .unknownCommand ∧ 4 ≤ (byteAt (tRecord [(0, 0x12), (1, 4)]) 1).toNat) ∧
    (takenFor 0x11#8 tRunning Lane.initial = false ∧ rowTakes (tRecord [(0, 0x11)]) ≠ .unknownCommand) ∧
    (takenFor 0x11#8 (tStream .ready) Lane.initial = true ∧ fieldsGood (tRecord [(0, 0x11), (63, 1)]) = false) ∧
    (∀ code : Byte, code = 0x11#8 ∨ code = 0x14#8 ∨ code = 0x16#8 ∨ code = 0x17#8 → byteAt (tRecord [(0, code)]) 0 = code) := by
  decide +kernel

theorem test_witness_configure (q : Byte) (h : q = 1#8 ∨ q = 2#8 ∨ q = 64#8) :
    (tCommand (tConfigure q) (tStream .ready) Lane.initial).Taken 0x10#8 0 (tConfigure q) 0 tPast := by
  rcases h with rfl | rfl | rfl <;>
    exact ⟨tCommand_has _ _ _, by decide, by decide, by decide, by decide +kernel⟩

/-- Quota 1 is below window 2 × P 1, quota 2 is not; quota 64 fits alone and not beside another stream's 1. -/
theorem test_witness_configure_quota :
    let s := tCommand (tConfigure 64) Stream.initial Lane.initial
    (byteAt (tConfigure 1) 23).toNat < 2 * 1 ∧ 2 * 1 ≤ (byteAt (tConfigure 2) 23).toNat ∧
    (s.setStream 0 Stream.initial).quotaSum + 64 ≤ 64 ∧
    64 < ((s.setStream 1 { tRunning with cfg := some { tCfg with quota := 1 } }).setStream 0 Stream.initial).quotaSum + 64 := by
  decide +kernel

theorem test_witness_start :
    let s := tCommand (tRecord [(0, 0x11), (8, 100)]) (tStream .ready) Lane.initial
    s.Taken 0x11#8 0 (tRecord [(0, 0x11), (8, 100)]) 0 tPast ∧ (s.stream 0).cfg = some tCfg :=
  ⟨⟨tCommand_has _ _ _, by decide, by decide, by decide, by decide +kernel⟩, rfl⟩

theorem test_witness_stop (st : StreamState) (h : st = .ready ∨ st = .running ∨ st = .halted) :
    (tCommand (tRecord [(0, 0x12)]) (tStream st) Lane.initial).Taken 0x12#8 0 (tRecord [(0, 0x12)]) 0 tPast := by
  rcases h with rfl | rfl | rfl <;> exact ⟨tCommand_has _ _ _, by decide, by decide, by decide, by decide +kernel⟩

theorem test_witness_abort (st : StreamState) (h : st = .ready ∨ st = .running ∨ st = .draining ∨ st = .halted) :
    (tCommand (tRecord [(0, 0x13)]) (tStream st) Lane.initial).Taken 0x13#8 0 (tRecord [(0, 0x13)]) 0 tPast := by
  rcases h with rfl | rfl | rfl | rfl <;> exact ⟨tCommand_has _ _ _, by decide, by decide, by decide, by decide +kernel⟩

theorem test_witness_abort_ring (st : StreamState) :
    let s := tCommand (tRecord [(0, 0x13)]) (tStream st) Lane.initial
    (s.stream 0).st = st ∧ (s.stream 0).ring = some tRing ∧ s.HasCommand (tRecord [(0, 0x13)]) 0 tPast ∧
      byteAt (tRecord [(0, 0x13)]) 0 = 0x13#8 ∧ (byteAt (tRecord [(0, 0x13)]) 1).toNat = (0 : StreamId).val :=
  ⟨rfl, rfl, tCommand_has _ _ _, by decide, by decide⟩

theorem test_witness_release_stream :
    (tCommand (tRecord [(0, 0x14)]) (tStream .ready) Lane.initial).Taken 0x14#8 0 (tRecord [(0, 0x14)]) 0 tPast :=
  ⟨tCommand_has _ _ _, by decide, by decide, by decide, by decide +kernel⟩

/-- A stream HALTED at band 0, which is live in state `st`, and the record `bs` in the admin unit. -/
def tHalted (bs : List Byte) (st : SlotState) : State :=
  tHolds bs (tLive { tStream .halted with halt := some { reason := .recordError, index := 0, band := some 0#16 } } st)

theorem test_witness_clearStream (a : Byte) (h : a = 0#8 ∨ a = 1#8) (st : SlotState) :
    (tHalted (tRecord [(0, 0x15), (8, a)]) st).Taken 0x15#8 0 (tRecord [(0, 0x15), (8, a)]) 0 tPast := by
  refine ⟨⟨rfl, tRing, false, rfl, rfl, rfl⟩, rfl, rfl, rfl, ?_⟩
  rcases h with rfl | rfl <;> decide +kernel

/-- SKIP_BAND with the halt's band OPEN, and with it CLOSED. -/
theorem test_witness_clearStream_band :
    let s := tHalted (tRecord [(0, 0x15), (8, 1)]) .opened
    let u := tHalted (tRecord [(0, 0x15), (8, 1)]) .closed
    byteAt (tRecord [(0, 0x15), (8, 1)]) 8 = 1#8 ∧ (s.stream 0).halt.bind HaltInfo.band = some 0#16 ∧
    s.openSlot 0 0#16 = some 0 ∧ s.slot 0 = some (tSlot .opened) ∧ u.openSlot 0 0#16 = none := by
  decide +kernel

/-- Lane 0 HALTED, band 0 live in state `st`, and the record `bs` in the admin unit. -/
def tLaneHalted (bs : List Byte) (st : SlotState) : State :=
  tHolds bs ((tLive tRunning st).setLane 0 (tLane .halted))

theorem test_witness_clearLane (a : Byte) (h : a = 0#8 ∨ a = 1#8) (st : SlotState) :
    (tLaneHalted (tRecord [(0, 0x16), (8, a)]) st).Taken 0x16#8 0 (tRecord [(0, 0x16), (8, a)]) 0 tPast := by
  refine ⟨⟨rfl, tRing, false, rfl, rfl, rfl⟩, rfl, rfl, rfl, ?_⟩
  rcases h with rfl | rfl <;> decide +kernel

/-- SKIP with a SENDING slot, and without one. -/
theorem test_witness_clearLane_slot :
    (tLaneHalted (tRecord [(0, 0x16), (8, 1)]) .sending).sendingSlot 0 = some 0 ∧
    (tLaneHalted (tRecord [(0, 0x16), (8, 1)]) .sending).slot 0 = some (tSlot .sending) ∧
    (tLaneHalted (tRecord [(0, 0x16), (8, 1)]) .closed).sendingSlot 0 = none ∧
    ((tLaneHalted (tRecord [(0, 0x16), (8, 1)]) .closed).stream 0).cfg = some tCfg := by
  decide +kernel

theorem test_witness_query :
    let s := tCommand (tRecord [(0, 0x17), (8, 64)]) tRunning Lane.initial
    s.Taken 0x17#8 0 (tRecord [(0, 0x17), (8, 64)]) 0 tPast ∧ s.port.busMaster = true ∧ s.port.linkUp = true ∧
      (s.stream 0).st ≠ .unconfigured ∧ (s.stream 0).ring = some tRing :=
  ⟨⟨tCommand_has _ _ _, by decide, by decide, by decide, by decide +kernel⟩, rfl, rfl, by decide, rfl⟩

/-- QUERY_STREAM of an UNCONFIGURED stream. -/
theorem test_witness_query_unconfigured :
    let s := tCommand (tRecord [(0, 0x17), (8, 64)]) Stream.initial Lane.initial
    s.Taken 0x17#8 0 (tRecord [(0, 0x17), (8, 64)]) 0 tPast ∧ (s.stream 0).st = .unconfigured :=
  ⟨⟨tCommand_has _ _ _, by decide, by decide, by decide, by decide +kernel⟩, rfl⟩

/-! ## Witnesses: hand-overs -/

/-- A record with a good verdict in a chosen latch. -/
theorem tHand_chosen (bs : List Byte) (x : Stream) (c : StreamCfg) (v : Verdict) (hc : x.cfg = some c) (hr : x.ring = some tRing)
    (hv : checkRecord 1 bs = v) (hch : (tHand bs x).handOverChoice = some 0) : (tHand bs x).Chosen 0 0 bs v c tRing := by
  subst hv
  exact ⟨hch, rfl, hc, hr⟩

theorem test_witness_ringFault :
    let s := tWith { tRunning with latch := .faulted 0 }
    s.handOverChoice = some 0 ∧ (s.stream 0).latch = .faulted 0 := by decide

theorem test_witness_badKind : (tHand (tRecord [(0, 9)]) tRunning).Chosen 0 0 (tRecord [(0, 9)]) .badKind tCfg tRing :=
  tHand_chosen _ _ _ _ rfl rfl (by decide +kernel) (by decide +kernel)

/-- A record of each kind with its flags byte 2 is malformed. -/
theorem test_witness_badField (k : Byte) (h : k = 1 ∨ k = 2 ∨ k = 3 ∨ k = 4 ∨ k = 5 ∨ k = 6 ∨ k = 7) :
    (tHand (tRecord [(0, k), (1, 2)]) tRunning).Chosen 0 0 (tRecord [(0, k), (1, 2)]) .badField tCfg tRing ∧
      ∃ kind, RecKind.ofCode (byteAt (tRecord [(0, k), (1, 2)]) 0) = some kind := by
  rcases h with rfl | rfl | rfl | rfl | rfl | rfl | rfl <;>
    exact ⟨tHand_chosen _ _ _ _ rfl rfl (by decide +kernel) (by decide +kernel), _, rfl⟩

/-- A record of kind `k` with NOTIFY that is good for band `n` of depth 1. -/
def tGood (k : RecKind) (n : Byte) : List Byte :=
  match k with
  | .openBand => tRecord [(0, 1), (1, 1), (2, n), (8, 1), (9, 1)]
  | .fillRect => tRecord [(0, 2), (1, 1), (2, n), (16, 32), (18, 1), (20, 1)]
  | .place => tRecord [(0, 3), (1, 1), (2, n), (16, 8), (18, 1), (20, 1), (22, 1), (24, 1)]
  | .copyRect => tRecord [(0, 4), (1, 1), (2, n), (16, 8), (18, 1)]
  | .closeBand => tRecord [(0, 5), (1, 1), (2, n)]
  | .discardBand => tRecord [(0, 6), (1, 1), (2, n)]
  | .mark => tRecord [(0, 7), (1, 1), (8, n)]

/-- A FILL_RECT of each combine mode: byte 21 is 0 to 3. -/
theorem test_witness_combine (n : Byte) (h : n = 0 ∨ n = 1 ∨ n = 2 ∨ n = 3) :
    byteAt (tRecord [(0, 2), (1, 1), (16, 32), (18, 1), (20, 1), (21, n)]) 21 = n ∧
      checkRecord 1 (tRecord [(0, 2), (1, 1), (16, 32), (18, 1), (20, 1), (21, n)]) = .good := by
  rcases h with rfl | rfl | rfl | rfl <;> decide +kernel

/-- 9.4: 2 is CLEAR, 3 XOR. -/
theorem test_combine_codes : [0, 1, 2, 3].map (fun n => recCombine (tRecord [(21, n)])) = [.replace, .or, .clear, .xor] := by
  decide +kernel

/-- R168: a PLACE row of 4097 bytes is 17 requests, 16 of 256 bytes and one of 1 byte, issued or left to wait. -/
theorem test_place_row_requests :
    let reqs := (tPort.askRow 0x1000#64 4097).outstanding
    reqs.length = 17 ∧ (reqs.map ReadReq.len).take 16 = List.replicate 16 256 ∧ (reqs.map ReadReq.len).drop 16 = [1] ∧
      (reqs.map ReadReq.addr).take 3 = [0x1000#64, 0x1100#64, 0x1200#64] ∧ tPort.readLimit = some 1 ∧
      (tPort.busMaster && tPort.linkUp) = true ∧ (({ tPort with busMaster := false } : Port).askRow 0x1000#64 257).waiting =
        [.read (.raster 0) 0x1000#64 256, .read (.raster 256) 0x1100#64 1] := by
  decide +kernel

/-- Band 0 OPEN, and a good record of kind `k` for band `n` chosen. -/
def tGiven (k : RecKind) (n : Byte) : State :=
  tLive { tRunning with latch := .held 0 (tGood k n) (checkRecord 1 (tGood k n)) } .opened

theorem tGiven_choice (k : RecKind) : (tGiven k 0).handOverChoice = some 0 ∧ (tGiven k 1).handOverChoice = some 0 := by
  cases k <;> decide +kernel

theorem tGood_verdict (k : RecKind) : checkRecord 1 (tGood k 0) = .good ∧ checkRecord 1 (tGood k 1) = .good := by
  cases k <;> decide +kernel

theorem tGood_kind (k : RecKind) (n : Byte) : RecKind.ofCode (byteAt (tGood k n) 0) = some k := by
  cases k <;> rfl

/-- Every kind of record is chosen with a good verdict, for band 0, which is OPEN, and for band 1, which is not. -/
theorem test_witness_good (k : RecKind) (n : Byte) (h : n = 0#8 ∨ n = 1#8) :
    (tGiven k n).Good 0 0 k (tGood k n) tCfg tRing := by
  refine ⟨⟨?_, ?_, rfl, rfl⟩, tGood_kind k n, rfl⟩
  · rcases h with rfl | rfl
    · exact (tGiven_choice k).1
    · exact (tGiven_choice k).2
  · show Latch.held 0 (tGood k n) (checkRecord 1 (tGood k n)) = _
    rcases h with rfl | rfl
    · exact congrArg _ (tGood_verdict k).1
    · exact congrArg _ (tGood_verdict k).2

/-- OPEN_BAND of next-open 1 with one band OPEN of a window of 2, of band 0, and with the window full. -/
theorem test_witness_openBand :
    le16 (tGood .openBand 1) 2 = ((tGiven .openBand 1).stream 0).nextOpen ∧
    le16 (tGood .openBand 0) 2 ≠ ((tGiven .openBand 0).stream 0).nextOpen ∧
    (tGiven .openBand 1).openCount 0 < tCfg.window ∧ (1 : Nat) ≤ (tGiven .openBand 1).openCount 0 ∧
    (tGiven .openBand 1).slot 1 = none ∧ (∀ j, j < 1 → (tGiven .openBand 1).slot j ≠ none) ∧
    byteAt (tGood .openBand 1) 8 = 1#8 := by
  decide +kernel

/-- With a window of 1 the same OPEN_BAND finds it full. -/
theorem test_witness_windowFull :
    let x : Stream := { tRunning with cfg := some { tCfg with window := 1 } }
    let s := tLive { x with latch := .held 0 (tGood .openBand 1) .good } .opened
    s.Good 0 0 .openBand (tGood .openBand 1) { tCfg with window := 1 } tRing ∧
      le16 (tGood .openBand 1) 2 = (s.stream 0).nextOpen ∧ 1 ≤ s.openCount 0 :=
  ⟨⟨⟨by decide +kernel, rfl, rfl, rfl⟩, rfl, rfl⟩, by decide +kernel, by decide +kernel⟩

/-- Band 1 is not OPEN in stream 0, as a destination and as a source. -/
theorem test_witness_bandNotOpen (k : RecKind) (j : SlotId) (b : BandSlot) (h : (tGiven k 1).slot j = some b) :
    b.band ≠ 1#16 := by
  rw [(tLive_slot _ _ j b h).2]
  decide

theorem test_witness_sourceNotOpen :
    checkRecord 1 (tRecord [(0, 4), (16, 8), (18, 1), (22, 1)]) = .good ∧
    le16 (tRecord [(0, 4), (16, 8), (18, 1), (22, 1)]) 22 = 1#16 := by
  decide +kernel

/-- A record of each kind names the skip band 0. -/
theorem test_witness_skip (k : RecKind) :
    let x : Stream := { tRunning with skip := some 0#16, latch := .held 0 (tGood k 0) .good }
    (tWith x).Chosen 0 0 (tGood k 0) .good tCfg tRing ∧ RecKind.ofCode (byteAt (tGood k 0) 0) = some k ∧
      ((tWith x).stream 0).skip = some 0#16 ∧ le16 (tGood k 0) 2 = 0#16 := by
  refine ⟨⟨?_, rfl, rfl, rfl⟩, tGood_kind k 0, rfl, ?_⟩ <;> cases k <;> decide +kernel

/-- Band 0 is OPEN for the drawing, closing and discarding records; a COPY_RECT's source too. -/
theorem test_witness_openSlot (k : RecKind) :
    (tGiven k 0).openSlot 0 0#16 = some 0 ∧ (tGiven k 0).slot 0 = some (tSlot .opened) ∧
      le16 (tGood .copyRect 0) 22 = 0#16 := by
  refine ⟨?_, rfl, by decide +kernel⟩
  cases k <;> decide +kernel

/-- The law that makes a looked-up OPEN slot the only one holds with one band. -/
theorem test_witness_uniqueLaw (st : SlotState) (x : Stream) : (tLive x st).UniqueLaw := by
  intro k k' b b' hb hb' _ _
  rw [(tLive_slot x st k b hb).1, (tLive_slot x st k' b' hb').1]

/-- The same for the SENDING slot, and a band is in it. -/
theorem test_witness_sendingLaw :
    (tLive tRunning .sending).SendingLaw ∧ (tLive tRunning .sending).sendingSlot 0 = some 0 := by
  refine ⟨fun k b hb _ => ?_, by decide +kernel⟩
  obtain ⟨rfl, rfl⟩ := tLive_slot tRunning .sending k b hb
  decide

/-- A MARK of each scope while a band is live. -/
theorem test_witness_mark :
    byteAt (tGood .mark 0) 8 = 0#8 ∧ byteAt (tGood .mark 1) 8 = 1#8 ∧
      ((tGiven .mark 1).stream 0).nextEmit ≠ ((tGiven .mark 1).stream 0).nextOpen := by
  decide +kernel

/-- A malformed record of each kind but MARK names the skip band 0. -/
theorem test_witness_skip_malformed (k : Byte) (h : k = 1 ∨ k = 2 ∨ k = 3 ∨ k = 4 ∨ k = 5 ∨ k = 6) :
    let bs := tRecord [(0, k), (1, 2)]
    (tHand bs { tRunning with skip := some 0#16 }).Chosen 0 0 bs .badField tCfg tRing ∧ le16 bs 2 = 0#16 := by
  rcases h with rfl | rfl | rfl | rfl | rfl | rfl <;>
    exact ⟨tHand_chosen _ _ _ _ rfl rfl (by decide +kernel) (by decide +kernel), by decide +kernel⟩

/-- R81, R84: the byte 0x1B holds the dots 0, 1, 2, 3 at source depth 2; at source depth 1 on depth 2 its bits 3 to 0 are 1,
0, 1, 1, and a set bit is the ink value. The rectangle starts 4 dots left of the band. -/
theorem test_place_source :
    let op (ds : Nat) : Op :=
      { tFill with
        kind := .place { x := -4, y := 0, w := 36, h := 1 } 0x1000#64 2 ds 3#2 .replace, depth := 2, rowData := [0x1B#8]
        area := { c0 := 0, c1 := 4, r0 := 0, r1 := 1 } }
    let b := (tLive tRunning .opened).bands
    [0, 1, 2, 3].map (fun u => (op 2).source b u 0) = [0#2, 1#2, 2#2, 3#2] ∧
      [0, 1, 2, 3].map (fun u => (op 1).source b u 0) = [3#2, 0#2, 3#2, 3#2] := by
  decide +kernel

/-! ## Witnesses: the raster unit, the ring unit, stream control -/

/-- Band 0 OPEN, and the fill of `rows` rows in flight. -/
def tFilling (rows : Nat) (x : Stream) : State :=
  { tLive x .opened with raster := .executing { tFill with area := { tFill.area with r1 := rows } } }

/-- The last row, a row before it, an ABORTING stream. -/
theorem test_witness_rowWrites :
    (tFilling 1 tRunning).port.part = .attached ∧ tFill.kind.filled = true ∧ tFill.area.isEmpty = false ∧
    tFill.rowsDone + 1 < 2 - tFill.area.r0 ∧ 1 - tFill.area.r0 ≤ tFill.rowsDone + 1 ∧ tFill.notify = true ∧
    ((tFilling 1 tRunning).stream 0).st ≠ .aborting ∧ ((tFilling 1 (tStream .aborting)).stream 0).st = .aborting := by
  decide

/-- A COPY_RECT of dots 0 to 3 to dots 2 to 5 of its own one-line band, whose areas overlap. -/
def tCopy : Op :=
  { tFill with
    kind := .copyRect 0 { x := 2, y := 0, w := 4, h := 1 } 0 0 .or, entryKind := 4#8
    area := { c0 := 2, c1 := 6, r0 := 0, r1 := 1 } }

theorem test_witness_copy :
    let b := (tLive tRunning .opened).bands
    (tCopy.kind = .copyRect tCopy.slot { x := 2, y := 0, w := 4, h := 1 } 0 0 .or ∧ Memory.wf b.mem = true) ∧
    b.slots.get tCopy.slot = some (tSlot .opened) ∧ (tSlot .opened).pages.Nodup ∧ tCopy.depth = 1 ∧ tCopy.width % 32 = 0 ∧
    tCopy.height * tCopy.lineBytes ≤ (tSlot .opened).pages.length * Config.pageBytes ∧ tCopy.area.isEmpty = false ∧
    tCopy.area.c1 ≤ tCopy.width ∧ tCopy.area.r1 ≤ tCopy.height :=
  ⟨⟨rfl, by decide⟩, rfl, by decide, rfl, by decide, by decide, by decide, by decide, by decide⟩

/-- Every dot of that area has its source dot in the band. -/
theorem test_witness_copy_source (x y : Nat) (h : (2 ≤ x ∧ x < 6) ∧ 0 ≤ y ∧ y < 1) :
    ((0 ≤ (x : Int) - 2 + 0 ∧ (x : Int) - 2 + 0 < tCopy.width) ∧ 0 ≤ (y : Int) - 0 + 0) ∧ (y : Int) - 0 + 0 < tCopy.height := by
  have hw : tCopy.width = 32 := rfl
  have hh : tCopy.height = 1 := rfl
  omega

/-- A copy downwards within one band, and one upwards. -/
theorem test_witness_copy_order :
    (0 : Int) < ({ x := 0, y := 3, w := 4, h := 1 } : Rect).y - 1 ∧ ({ x := 0, y := 0, w := 4, h := 1 } : Rect).y - 1 ≤ 0 := by
  decide

/-- An entry of the given status for stream 0. -/
def tEntry (st : Status) : Entry :=
  { tag := 0#32, source := 1#8, kind := 2#8, status := st, empty := false, index := 0#16, head := 1#16, extra := 0#32 }

/-- Offers of a lane, the raster unit and the admin unit, with `n` entries in the queue. -/
def tOffers (n : Nat) : State :=
  { tPart.setLane 0 { tLane .idle with latch := some .synced } with
    raster := .holding 0 (tEntry .ok), admin := .posting (tEntry .ok) (some 0)
    ring := { tRings with queue := List.replicate n (tEntry .ok) } }

/-- The queue with one place left and full; the lane's offer comes first; two other offers that the arbiter may choose. -/
theorem test_witness_offers :
    (tOffers 0).port.part = .attached ∧ (tOffers 15).ring.queue.length < 16 ∧ 16 ≤ (tOffers 16).ring.queue.length ∧
    (tOffers 15).chooseOffer = some (.lane 0) ∧ (tOffers 15).offer (.lane 0) = some (laneEntry 0 .synced) ∧
    tPart.chooseOffer = none ∧ (tOffers 15).contenders = [.lane 0, .raster, .admin] := by
  decide +kernel

/-- A mark in state `st`. -/
def tMark (st : MarkState) : Mark := { tag := 7#32, index := 3, head := 4, boundary := 0#16, st := st }

/-- The arbiter comes to each category: a stream's due STOP, the raster unit's and the admin unit's entries. -/
theorem test_witness_categories :
    let due : Stream := { tStream .ready with dstop := some { tag := 1#32, index := 0, head := 1, due := some (.ok, 5#16) } }
    (tWith due).chooseOffer = some (.stream 0) ∧
    (let x : Stream := { tStream .running with marks := [tMark .boundary, tMark .dueOk] }
     x.dstop = none ∧ x.marks = [tMark .boundary] ++ tMark .dueOk :: [] ∧ (tWith x).chooseOffer = some (.stream 0)) ∧
    ({ tPart with admin := .posting (tEntry .ok) (some 0) } : State).chooseOffer = some .admin ∧
    ({ tPart with admin := .posting (tEntry .ok) none, raster := .holding 0 (tEntry .ok) } : State).chooseOffer = some .raster := by
  decide +kernel

/-- Each producer alone has an offer that the arbiter may choose; a stream has two. -/
theorem test_witness_lone_offers :
    let due : Stream := { tStream .ready with
      marks := [tMark .dueOk], dstop := some { tag := 1#32, index := 0, head := 1, due := some (.ok, 5#16) } }
    (tPart.setLane 0 { tLane .idle with latch := some .synced }).contenders = [.lane 0] ∧
    (tWith due).contenders = [.stream 0] ∧ ((tWith due).admitAsMade (.stream 0)).contenders = [.stream 0] ∧
    ((tWith due).offerStream 0).contenders = [] ∧
    ({ tPart with raster := .holding 0 (tEntry .ok) } : State).contenders = [.raster] ∧
    ({ tPart with admin := .posting (tEntry .ok) none } : State).contenders = [.admin] := by
  decide +kernel

/-- R150: a due STOP that START_STREAM has kept goes before a mark that the new run makes due. -/
theorem test_due_stop_before_mark_of_new_run :
    let x : Stream := { tStream .running with
      marks := [tMark .dueOk], dstop := some { tag := 1#32, index := 0, head := 1, due := some (.ok, 5#16) } }
    ((tWith x).offerStream 0).ring.queue.map Entry.kind = [0x12#8, 0x07#8] ∧
      (((tWith x).offerStream 0).stream 0).marks = [] ∧ (((tWith x).offerStream 0).stream 0).dstop = none := by
  decide +kernel

/-- R175: the extra of a LANE_HALTED for band 50 with reason 6, and for a SYNC; each event's kind. -/
theorem test_lane_entries :
    (laneEntry 2 (.halted 6#4 (some 50#16))).extra = 0x00060032#32 ∧ (laneEntry 2 (.halted 6#4 none)).extra = 0x8006FFFF#32 ∧
      [LaneEvent.bandSent 7#32 1#16, .starved 1#16, .synced, .halted 6#4 none, .lost 1#16].map
        (fun ev => ((laneEntry 2 ev).source, (laneEntry 2 ev).kind)) =
      [(10#8, 0x20#8), (10#8, 0x21#8), (10#8, 0x22#8), (10#8, 0x23#8), (10#8, 0x24#8)] := by
  decide +kernel

/-- A latch that holds each event. -/
theorem test_witness_lane_events (ev : LaneEvent) :
    ((tPart.setLane 3 { tLane .idle with latch := some ev }).lane 3).latch = some ev ∧ (tPart.lane 3).latch = none :=
  ⟨rfl, rfl⟩

/-- A due STOP behind the event that its drain end found in lane 0's latch, an entry of that lane in the queue. -/
def tBehind : State :=
  let due : Stream := { tStream .ready with dstop := some { tag := 1#32, index := 0, head := 1, due := some (.ok, 5#16) } }
  { (tWith due).setLane 0 { Lane.initial with latch := some (.starved 4#16), beforeStop := true } with
    admin := .posting (tEntry .ok) (some 0)
    ring := { tRings with queue := [laneEntry 0 .synced] } }

/-- R132, R39: the STOP waits for that event, the completion of a command for that stream behind it; once the lane's entry has
left the queue, they follow in order. -/
theorem test_stop_behind_event :
    tBehind.admissible (.stream 0) = false ∧ tBehind.admissible .admin = false ∧ (tBehind.lane 0).latch ≠ none ∧
    tBehind.chooseOffer = none ∧
    let s : State := { tBehind with ring := { tBehind.ring with queue := [] } }
    ∃ t u v, exec .entryAdmission s = .next t ∧ exec .entryAdmission t = .next u ∧ exec .entryAdmission u = .next v ∧
      v.ring.queue.map Entry.kind = [0x21#8, 0x12#8, 0x02#8] :=
  ⟨by decide +kernel, by decide +kernel, by decide +kernel, by decide +kernel, _, _, _, rfl, rfl, rfl, by decide +kernel⟩

/-- R127, R151: with that STOP of stream 0 held, the completion of a command for stream 1 is admitted as it is made. -/
theorem test_other_streams_command_goes :
    let s : State := { tBehind with admin := .posting { tEntry .ok with source := 2#8 } (some 1) }
    (s.admitAsMade .admin).ring.queue.map Entry.kind = [0x22#8, 0x02#8] ∧ (s.admitAsMade .admin).admin = .idle := by
  decide +kernel

/-- The same with stream 1's drain-end STOP held: lane 0's LANE_RESUMED after the CLEAR_LANE's completion. -/
theorem test_clearLane_ahead_of_held_stop :
    let due : Stream := { tStream .ready with dstop := some { tag := 1#32, index := 0, head := 1, due := some (.ok, 5#16) } }
    let s := ((tLaneHalted (tRecord [(0, 0x16)]) .closed).setStream 1 due).setLane 1
      { Lane.initial with latch := some (.starved 4#16), beforeStop := true }
    let u : State := { s with ring := { s.ring with queue := [laneEntry 1 .synced] } }
    u.contenders = [] ∧ ∃ t, exec .clearLaneResend u = .next t ∧ t.ring.queue.map Entry.kind = [0x22#8, 0x16#8] ∧
      (t.lane 0).state = .syncing :=
  ⟨by decide +kernel, _, rfl, by decide +kernel, by decide +kernel⟩

/-- The completion ring at its last index and full; an urgent entry, the entry that reaches the count, one before it. -/
theorem test_witness_entryWrite (e : Entry) :
    let s : State := { tPart with ring := { tRings with queue := [e], comp := some { tComp with write := 15, release := 1 } } }
    s.port.part = .attached ∧ s.ring.queue = [e] ∧ (15 + 1) % 16 ≠ 1 ∧ (15 + 1) % 16 = 0 ∧ .entry ∉ s.port.waiting ∧
      s.port.busMaster = true ∧ s.port.linkUp = true ∧ s.port.cause.completion = false ∧
      (tEntry .aborted).status ≠ .ok ∧ (tEntry .ok).kind ≠ 0x23#8 ∧ (1 : Nat) + 1 = 2 ∧ (0 : Nat) + 1 ≠ 2 :=
  ⟨rfl, rfl, by decide, by decide, List.not_mem_nil, rfl, rfl, rfl, by decide, by decide, rfl, by decide⟩

/-- A DRAINING stream found input-quiet, band 0 OPEN. -/
def tDraining : Stream := { tStream .draining with ring := some { tRing with tail := 0 } }

theorem test_witness_drain :
    let s := tLive tDraining .opened
    let u := (tWith tDraining).setLane 0 (tLane .idle)
    s.port.part = .attached ∧ (s.stream 0).st = .draining ∧ (s.stream 0).ring = some { tRing with tail := 0 } ∧
    (s.stream 0).latch = .empty ∧ s.raster.stream ≠ some 0 ∧ (u.lane 0).state = .idle ∧ (u.stream 0).marks = [] ∧
    (∀ k, u.slot k = none) := by
  decide +kernel

/-- An ABORTING stream at each of its waits, with what it waits for there and not there. -/
theorem test_witness_abortStep (a : AbortAt) :
    let x : Stream := { tStream .aborting with abortAt := some a, dabort := some { tag := 1#32, index := 0, head := 1, due := true } }
    let s := tWith x
    let mark : Mark := { tag := 1#32, index := 0, head := 1, boundary := 0#16, st := .boundary }
    let busy := tWith { x with marks := [mark], dstop := some { tag := 1#32, index := 0, head := 1, due := none } }
    s.port.part = .attached ∧ (s.stream 0).st = .aborting ∧ (s.stream 0).abortAt = some a ∧ s.raster.stream ≠ some 0 ∧
      (tFilling 1 x).raster.stream = some 0 ∧ (s.lane 0).state = .offline ∧
      ((s.setLane 0 (tLane .sending)).lane 0).state ≠ .offline ∧ (s.stream 0).marks = [] ∧ (busy.stream 0).marks ≠ [] ∧
      (s.stream 0).dstop = none ∧ (busy.stream 0).dstop ≠ none ∧ (∀ m ∈ (busy.stream 0).marks, m.st = .boundary) ∧
      (s.stream 0).dabort = some { tag := 1#32, index := 0, head := 1, due := true } ∧ (s.stream 0).ring = some tRing := by
  refine ⟨rfl, rfl, rfl, ?_, rfl, rfl, ?_, rfl, List.cons_ne_nil _ _, rfl, ?_, ?_, rfl, rfl⟩
  · show (none : Option StreamId) ≠ some 0
    decide
  · show LaneState.sending ≠ .offline
    decide
  · exact Option.some_ne_none _
  · intro m h
    rw [List.mem_singleton.mp h]

/-! ## Witnesses: the lanes -/

/-- Band 0 live in state `st`, lane 0 as given. -/
def tEmit (st : SlotState) (l : Lane) : State := (tLive tRunning st).setLane 0 l

theorem tEmit_bands (st : SlotState) (l : Lane) : (tEmit st l).bands = (tLive tRunning st).bands := rfl

theorem test_witness_lanes_start :
    let a := tEmit .closed (tLane .syncing)
    let b := tEmit .closed (tLane .idle)
    a.port.part = .attached ∧ (a.lane 0).params = some tParams ∧ (a.lane 0).latch = none ∧ (a.lane 0).stopPending = false ∧
    (a.lane 0).state = .syncing ∧ (a.lane 0).out = none ∧ (b.lane 0).state = .idle ∧ 1 ≤ (b.lane 0).credit ∧
    (b.stream 0).emits = true ∧ (b.stream 0).cfg = some tCfg ∧
    (b.findSlot fun x => x.stream == 0 && x.band == (b.stream 0).nextEmit && (x.st == .closed || x.st == .sending)) = some 0 ∧
    b.slot 0 = some (tSlot .closed) := by
  decide +kernel

/-- Lane 0 in state `st` with the frame `f` outstanding, with and without a stop order. -/
def tExchange (st : LaneState) (f : Frame) (stop : Bool) : State :=
  tEmit .sending { tLane st with out := some (tOut f), progress := some (tProgress .header), stopPending := stop }

theorem test_witness_exchange (st : LaneState) (f : Frame) (stop : Bool) :
    (tExchange st f stop).Exchange 0 st (tOut f) ∧ ((tExchange st f stop).stream 0).cfg = some tCfg ∧
      ((tExchange st f stop).lane 0).params = some tParams ∧
      ((tExchange st f stop).lane 0).progress = some (tProgress .header) ∧
      ((tExchange st f stop).lane 0).stopPending = stop ∧ (tExchange st f stop).port.part ≠ .detaching ∧
      (tProgress .header).count ≠ 0 :=
  ⟨⟨rfl, rfl, rfl⟩, rfl, rfl, rfl, rfl, PartState.noConfusion, Nat.one_ne_zero⟩

theorem test_witness_exchange_slot (st : LaneState) (f : Frame) (stop : Bool) :
    (tExchange st f stop).sendingSlot 0 = some 0 ∧ (tExchange st f stop).slot 0 = some (tSlot .sending) := by
  simp only [State.sendingSlot, State.findSlot, State.slot, tExchange, tEmit_bands]
  exact ⟨by decide +kernel, by decide +kernel⟩

/-- The same TRAILER for an ABORTING stream. -/
theorem test_witness_exchange_aborting (f : Frame) :
    let s := (tExchange .sending f true).setStream 0 { tStream .aborting with nextOpen := 1#16 }
    s.Exchange 0 .sending (tOut f) ∧ (s.stream 0).st = .aborting ∧ ((tExchange .sending f true).stream 0).st ≠ .aborting :=
  ⟨⟨rfl, rfl, rfl⟩, rfl, StreamState.noConfusion⟩

/-- The ranges of the CHUNK clauses at the last chunk and before it, and of the WAIT clauses at the wait limit and beyond. -/
theorem test_witness_exchange_ranges :
    (0 + 1 < 2 ∧ 1 ≤ 0 + 1) ∧ (0 + 1 ≤ tParams.waitLimit ∧ tParams.waitLimit < 1 + 1) ∧ (tHeader false).isSync = false ∧
      ∀ n, tHeader false ≠ .cancel n :=
  ⟨by decide, by decide, rfl, fun n h => Frame.noConfusion h⟩

theorem test_witness_strayFrames :
    (∀ o, (tPart.lane 0).out = some o → o.begun = true → o.seq ≠ 0#2) ∧ (tPart.lane 0).state = .offline ∧
    ((tEmit .closed (tLane .idle)).lane 0).state ≠ .offline ∧ parseHead [] = none ∧
    parseHead (withCheck [0x81, 2]) = some (.accept 2#2) ∧ parseHead (withCheck [0x84, 3]) = some (.credit 3#8) := by
  refine ⟨fun o h => ?_, by decide, by decide, by decide +kernel, by decide +kernel, by decide +kernel⟩
  cases (show none = some o from h)

/-- A transmission under way, a frame that waits for it, one whose reply timer runs, one PAUSED; limits not reached and passed. -/
theorem test_witness_timers (st : LaneState) (f : Frame) :
    let t : Transmission := { bytes := [1#8], counts := true }
    let l : Lane := { tLane st with out := some (tOut f), progress := some (tProgress .header) }
    ((tEmit .sending { l with tx := some t }).lane 0).tx = some t ∧
      ((tEmit .sending { l with tx := some t, txWaiting := true }).lane 0).txWaiting = true ∧
      ((tEmit .sending l).lane 0).out = some (tOut f) ∧ (tOut f).begun = true ∧ (tOut f).timer = true ∧
      (tOut f).paused = false ∧ ({ tOut f with paused := true } : Outstanding).paused = true ∧
      ((tEmit .sending l).lane 0).tx = none ∧ ((tEmit .sending l).lane 0).state = st ∧
      ((tEmit .sending l).lane 0).resendCount + 1 ≤ tParams.resendLimit ∧
      tParams.resendLimit < ((tEmit .sending { l with resendCount := 1 }).lane 0).resendCount + 1 :=
  ⟨rfl, rfl, rfl, rfl, rfl, rfl, rfl, rfl, rfl, Nat.le_refl 1, Nat.lt_succ_self 1⟩

theorem test_witness_starve :
    let s := (tWith tRunning).setLane 0 (tLane .idle)
    s.starveArmed 0 = true ∧ s.port.part ≠ .detaching ∧ (s.lane 0).stopPending = false ∧ tPart.starveArmed 0 = false := by
  decide +kernel

/-! ## Steps the spec works out -/

/-- 5.7, event 1: the ACCEPT of the SYNC leaves lane 2 IDLE with seq 1 and credit 0, and LANE_SYNCED is admitted. -/
theorem test_accept_sync :
    let s := (tExchange .syncing (.sync 256) false)
    ∃ t, exec (.accept 0 1#2) s = .next t ∧ (t.lane 0).state = .idle ∧ (t.lane 0).seq = 1#2 ∧ (t.lane 0).credit = 0 ∧
      t.ring.queue = [laneEntry 0 .synced] :=
  ⟨_, rfl, by decide +kernel, by decide +kernel, by decide +kernel, by decide +kernel⟩

/-- 10.8: the ACCEPT of the TRAILER of a band that a mark waits for: the MARK's completion enters the queue before BAND_SENT. -/
theorem test_trailer_mark_first :
    let x : Stream := { tRunning with nextOpen := 1#16, marks := [tMark .boundary] }
    let s := (tExchange .sending (.trailer 1 0#32) false).setStream 0 x
    ∃ t, exec (.accept 0 1#2) s = .next t ∧
      t.ring.queue = [markEntry 0 (tMark .dueOk), laneEntry 0 (.bandSent 5#32 0#16)] ∧ (t.stream 0).nextEmit = 1#16 ∧
      (t.lane 0).state = .idle :=
  ⟨_, rfl, by decide +kernel, by decide +kernel, by decide +kernel⟩

/-- R14, R48: the same for an ABORTING stream under a stop order: the MARK's completion first, then BAND_SENT, then OFFLINE. -/
theorem test_trailer_mark_first_aborting :
    let x : Stream := { tStream .aborting with abortAt := some .lane, nextOpen := 1#16, marks := [tMark .boundary] }
    let s := (tExchange .sending (.trailer 1 0#32) true).setStream 0 x
    ∃ t, exec (.accept 0 1#2) s = .next t ∧
      t.ring.queue = [markEntry 0 (tMark .dueOk), laneEntry 0 (.bandSent 5#32 0#16)] ∧ (t.lane 0).state = .offline :=
  ⟨_, rfl, by decide +kernel, by decide +kernel⟩

/-- R29, R141, R143: the return of the fetch takes the command and leaves the head; a tail then written equal to the head leaves
it taken; its row moves the head, and the tail is the one written. -/
theorem test_admin_head_moves_at_the_row :
    let q : ReadReq := { tReq .admin with got := [some 0x18#8, none] }
    let s : State := { tReading .admin { tPart with admin := .fetching } with port := { tPort with outstanding := [q] } }
    ∃ t u v, exec (.readCompletion 7 1 [0#8] true) s = .next t ∧ exec (.notifyAdminTail 0#16) t = .next u ∧
      exec .unknownCommand u = .next v ∧ t.ring.admin = some tRing ∧ u.admin = .fetched [0x18#8, 0#8] 0 true ∧
      u.ring.admin = some tRing ∧ v.ring.admin = some { tRing with head := 1, tail := 0 } ∧ v.ring.queue.length = 1 :=
  ⟨_, _, _, rfl, rfl, rfl, by decide +kernel, by decide +kernel, by decide +kernel, by decide +kernel, by decide +kernel⟩

/-- R32, R171: a link loss before the row leaves the head at the command that is not carried out. -/
theorem test_link_loss_before_the_row :
    ∃ t, exec .linkLoss (tHolds (tRecord [(0, 0x18)]) tPart) = .next t ∧ t.port.part = .fatal ∧ t.ring.admin = some tRing ∧
      exec .unknownCommand t = .next t :=
  ⟨_, rfl, by decide +kernel, by decide +kernel, rfl⟩

/-- R169, log 7: a byte that arrives twice is the later one. -/
theorem test_fill_replaces : (((tReq .fetch).fill 0 [1#8]).fill 0 [3#8, 2#8]).whole = some [3#8, 2#8] := by decide

/-- A command taken, its row at the queue's front; and the law of commands holds. -/
theorem test_witness_commandLaw (met : Bool) :
    let bs := tRecord [(0, 0x18)]
    let s : State := { tPart with admin := .fetched bs 0 met, pending := [.unknownCommand] }
    s.CommandLaw ∧ s.port.part = .attached ∧ s.ring.admin = some tRing ∧ tRing.head ≠ tRing.tail ∧
      s.pending = rowTakes bs :: [] ∧ tLaws.CommandLaw := by
  refine ⟨fun b n m h => ?_, rfl, rfl, by decide, rfl, fun b n m h => ?_⟩
  · cases h; exact ⟨tRing, rfl, rfl, by decide⟩
  · cases h

/-- A tail off the head and on it, with a command taken. -/
theorem test_witness_tail_beside_command :
    let s : State := { tPart with admin := .fetched [] 0 false }
    s.port.part = .attached ∧ s.ring.admin = some tRing ∧ s.admin = .fetched [] 0 false ∧ (0#16).toNat = tRing.head ∧
      (15#16).toNat ≠ tRing.head ∧ (15#16).toNat < tRing.size ∧ tPart.admin = .idle := by
  decide

/-- R39, R43: a CLEAR_STREAM RESUME that returns a stream to DRAINING finds the drain end, and its STOP goes before the
CLEAR_STREAM's own completion. -/
theorem test_clearStream_finds_drain_end :
    let x : Stream := { tDraining with
      st := .halted, ret := some .draining, dstop := some { tag := 1#32, index := 0, head := 1, due := none } }
    let s := tCommand (tRecord [(0, 0x15)]) x (tLane .idle)
    ∃ t, exec .clearStreamResume s = .next t ∧ t.ring.queue.map Entry.kind = [0x12#8, 0x15#8] ∧ (t.stream 0).st = .ready ∧
      (t.lane 0).state = .offline :=
  ⟨_, rfl, by decide +kernel, by decide +kernel, by decide +kernel⟩

/-- 7.8: the write at index 15 has phase 1, and the next one goes to index 0 with phase 0. -/
theorem test_entry_wraps :
    let s : State := { tPart with ring := { tRings with
      queue := [tEntry .ok], comp := some { tComp with write := 15, release := 10 } } }
    ∃ t, exec .completionEntryWrite s = .next t ∧
      t.ring.comp = some { tComp with write := 0, release := 10, phase := false } ∧
      t.port.sent = [.write 0x20F0#64 [0, 0, 0, 0, 1, 2, 0, 1, 0, 0, 1, 0, 0, 0, 0, 0]] :=
  ⟨_, rfl, by decide +kernel, by decide +kernel⟩

/-- R2: dot 3 is bit 4 of byte 0 at depth 1; the XOR fill of dots 3 to 31 inverts them and leaves dots 0 to 2. -/
theorem test_rowWrite_bytes :
    ∃ t, exec .rowWrite { tFilling 1 tRunning with bands := { (tLive tRunning .opened).bands with mem := [(0, 0xF0#8)] } } = .next t ∧
      t.bands.mem = [(0, 0xEF#8), (1, 0xFF#8), (2, 0xFF#8), (3, 0xFF#8)] ∧ t.raster = .free ∧ t.ring.queue.length = 1 :=
  ⟨_, rfl, by decide +kernel, by decide +kernel, by decide +kernel⟩

end Sys2Proof.Tests
end

section
/-!
What the band manager's part of the state can do in one step: the inversion of a step into moves of the band table, and the
laws of the page pool, of band memory and of the numbering, each kept by every move (R2, R4, R9, R13, R19, R20, R49).
-/

namespace Sys2Proof.Machine

/-! ## What the band laws see of a stream -/

/-- R49 for one stream: its ABORT completion is due only at step 7 of an abort. -/
def Stream.AbortOk (x : Stream) : Prop :=
  ∀ d, x.dabort = some d → d.due = true → x.st = .aborting ∧ x.abortAt = some .abort

/-- The stream states in which a stream holds no slot (R19, R49). -/
def Stream.Vacant (x : Stream) : Prop := x.st = .unconfigured ∨ x.st = .ready ∨ x.pastBands = true

/-- A change of a stream's context that the laws of the numbering allow whatever the band table holds. -/
structure Stream.Calm (x y : Stream) : Prop where
  nextOpen : y.nextOpen = x.nextOpen
  nextEmit : y.nextEmit = x.nextEmit
  emits : y.emits = true → x.emits = true
  vacant : x.AbortOk → y.Vacant → x.Vacant
  abort : x.AbortOk → y.AbortOk

theorem Stream.Calm.refl (x : Stream) : x.Calm x := ⟨rfl, rfl, id, fun _ => id, id⟩

/-- A change of fields that are neither state, abort step, deferred ABORT nor numbering is calm. -/
theorem Stream.Calm.of_eq {x y : Stream} (hst : y.st = x.st) (hat : y.abortAt = x.abortAt) (hd : y.dabort = x.dabort)
    (ho : y.nextOpen = x.nextOpen) (he : y.nextEmit = x.nextEmit) : x.Calm y where
  nextOpen := ho
  nextEmit := he
  emits := by simp [Stream.emits, Stream.takesRecords, hst]
  vacant _ := by simp [Stream.Vacant, Stream.pastBands, hst, hat]
  abort := by simp [Stream.AbortOk, hst, hat, hd]

/-- A calm change given by its parts, where that the stream may hold slots does not rest on R49. -/
theorem Stream.Calm.of_move {x y : Stream} (ho : y.nextOpen = x.nextOpen) (he : y.nextEmit = x.nextEmit)
    (hemit : y.emits = true → x.emits = true) (hv : y.Vacant → x.Vacant) (ha : x.AbortOk → y.AbortOk) : x.Calm y :=
  ⟨ho, he, hemit, fun _ => hv, ha⟩

/-- Away from step 7 of an abort no ABORT is due (R49). -/
theorem Stream.AbortOk.not_due {x : Stream} (h : x.AbortOk) (hx : x.st ≠ .aborting ∨ x.abortAt ≠ some .abort)
    (d : DeferredAbort) (hd : x.dabort = some d) : d.due = false := by
  cases hdue : d.due with
  | false => rfl
  | true =>
    obtain ⟨hst, hat⟩ := h d hd hdue
    exact absurd hat (hx.resolve_left fun hne => hne hst)

/-- A stream without a due ABORT meets R49. -/
theorem Stream.abortOk_of_not_due {x : Stream} (h : ∀ d, x.dabort = some d → d.due = false) : x.AbortOk := by
  intro d hd hdue
  simp [h d hd] at hdue

/-- The admission of a stream's offer is calm: a due ABORT ends an abort that has passed step 4 (R49, R50). -/
theorem Stream.admitted_calm (x : Stream) : x.Calm x.admitted := by
  rcases x.admitted_cases with e | ⟨ms, e⟩ | e | ⟨d, hd, hdue, e⟩
  · rw [e]; exact .of_eq rfl rfl rfl rfl rfl
  · rw [e]; exact .of_eq rfl rfl rfl rfl rfl
  · rw [e]; exact .refl x
  · rw [e]
    refine ⟨rfl, rfl, by simp [Stream.emits, Stream.takesRecords], fun ha _ => ?_, fun _ => by simp [Stream.AbortOk]⟩
    obtain ⟨hst, hat⟩ := ha d hd hdue
    exact .inr (.inr (by simp [Stream.pastBands, hst, hat]))

/-- The silent abort of a detach is calm (R164, log 13). -/
theorem Stream.abandoned_calm (x : Stream) : x.Calm x.abandoned := by
  refine .of_move rfl rfl ?_ ?_ (fun _ => by simp [Stream.AbortOk, Stream.abandoned])
  · cases hx : x.st <;> simp [Stream.abandoned, Stream.emits, Stream.takesRecords, hx]
  · cases hx : x.st <;> simp [Stream.abandoned, Stream.emits, Stream.takesRecords, Stream.Vacant, Stream.pastBands, hx]

/-! ## The moves of the band table -/

/-- One move: what the band manager, or a change of the streams' contexts, can do that the laws of the bands see. -/
inductive State.BandMove (s : State) : State → Prop
  /-- The band table stays, and every stream changes calmly. -/
  | calm {t : State} (bands : t.bands = s.bands) (streams : ∀ i, (s.stream i).Calm (t.stream i)) : s.BandMove t
  /-- Every block is initial; band memory is kept or zeroed (R3, R18). -/
  | blank {t : State} (mem : t.bands.mem = s.bands.mem ∨ t.bands.mem = []) (free : t.bands.free = allPages)
      (slots : t.bands.slots = Vector.replicate 64 none) (streams : t.streams = Vector.replicate 4 Stream.initial) :
      s.BandMove t
  /-- A stream that holds no slot has its context replaced by one whose numbering is empty or that does not emit. -/
  | renumber (i : StreamId) (y : Stream) (none_held : (s.stream i).Vacant ∨ s.holdsSlot i = false)
      (numbers : y.emits = true → y.nextOpen = y.nextEmit) (abort : (s.stream i).AbortOk → y.AbortOk) :
      s.BandMove (s.setStream i y)
  /-- A stream that emits takes a FREE slot for the band next-open (R9). -/
  | openNew (i : StreamId) (k : SlotId) (pages : Nat) (emits : (s.stream i).emits = true) (free : s.slot k = none) :
      s.BandMove (s.openNew i k (s.stream i).nextOpen pages)
  /-- A slot changes but for its stream, band and pages; it becomes SENDING only at next-emit (R13). -/
  | mapSlot (k : SlotId) (f : BandSlot → BandSlot)
      (keeps : ∀ b, (f b).stream = b.stream ∧ (f b).band = b.band ∧ (f b).pages = b.pages)
      (sending : ∀ b, s.slot k = some b → (f b).st = .sending → b.st = .sending ∨ b.band = (s.stream b.stream).nextEmit) :
      s.BandMove (s.mapSlot k f)
  /-- A SENDING slot leaves (R14, R15). -/
  | passBand (k : SlotId) (b : BandSlot) (held : s.slot k = some b) (sending : b.st = .sending) :
      s.BandMove (s.passBand b.stream k)
  /-- A slot's contents are discarded (R12). -/
  | discardSlot (k : SlotId) : s.BandMove (s.discardSlot k)
  /-- Drain auto-close (R11). -/
  | autoClose (i : StreamId) : s.BandMove (s.autoClose i)
  /-- All slots of a stream that does not emit become FREE (R7, R17). -/
  | freeAll (i : StreamId) (silent : (s.stream i).emits = false) : s.BandMove (s.freeAll i)
  /-- A row write (R78). -/
  | writeRow (op : Op) : s.BandMove { s with bands := op.writeRow s.bands }

/-! ## The page pool and band memory -/

/-- Every move keeps each page in exactly one place (R4). -/
theorem State.BandMove.keeps_poolLaw {s t : State} (m : s.BandMove t) (h : s.PoolLaw) : t.PoolLaw := by
  cases m with
  | calm bands _ => unfold State.PoolLaw; rw [bands]; exact h
  | blank _ free slots _ => simp [State.PoolLaw, Bands.live, free, slots]
  | renumber => exact h
  | openNew i k pages _ free => exact h.openNew i k _ pages free
  | mapSlot k f keeps _ =>
    refine h.putSlot k _ ?_
    cases s.slot k with
    | none => rfl
    | some b => exact (keeps b).2.2
  | passBand k _ _ _ => exact h.freeSlot k
  | discardSlot k => exact h.discardSlot k
  | autoClose i => exact h.autoClose i
  | freeAll i _ => exact h.freeAll i
  | writeRow => exact h

/-- No address outside the 64 pages can be formed (R2, log 16). -/
theorem bandAddr_lt {pages : List Page} {b a : Nat} (h : bandAddr pages b = some a) : a < 64 * Config.pageBytes := by
  simp only [bandAddr, Option.map_eq_some_iff] at h
  obtain ⟨p, _, rfl⟩ := h
  have hp := p.isLt
  have hb : b % Config.pageBytes < Config.pageBytes := Nat.mod_lt _ (by decide)
  simp only [Config.pageBytes] at hb ⊢
  omega

/-- A row write names only bytes of the 64 pages (R2, R78). -/
theorem Op.rowCells_lt (op : Op) (b : Bands) (v : Nat) : ∀ c ∈ op.rowCells b v, c.1 < 64 * Config.pageBytes := by
  intro c hc
  simp only [Op.rowCells, List.mem_filterMap, Option.map_eq_some_iff] at hc
  obtain ⟨_, _, a, ha, rfl⟩ := hc
  exact bandAddr_lt ha

theorem State.MemoryLaw.of_mem_eq {s t : State} (h : s.MemoryLaw) (e : t.bands.mem = s.bands.mem) : t.MemoryLaw := by
  unfold State.MemoryLaw; rw [e]; exact h

theorem State.MemoryLaw.of_mem_nil {t : State} (e : t.bands.mem = []) : t.MemoryLaw := by
  simp [State.MemoryLaw, Memory.wf, e]

/-- A row write keeps band memory canonical and inside the pages (R2, R78). -/
theorem State.MemoryLaw.writeRow {s : State} (h : s.MemoryLaw) (op : Op) :
    ({ s with bands := op.writeRow s.bands } : State).MemoryLaw := by
  refine ⟨Op.writeRow_wf op s.bands h.1, fun c hc => ?_⟩
  rcases Memory.mem_writeAll hc with hc | hc
  · exact h.2 c hc
  · exact Op.rowCells_lt op s.bands op.line c hc

theorem State.discardSlot_mem (k : SlotId) (s : State) : (s.discardSlot k).bands.mem = s.bands.mem := by
  unfold State.discardSlot; split <;> rfl

/-- Every move keeps band memory canonical and inside the pages (R2). -/
theorem State.BandMove.keeps_memoryLaw {s t : State} (m : s.BandMove t) (h : s.MemoryLaw) : t.MemoryLaw := by
  cases m with
  | calm bands _ => exact h.of_mem_eq (by rw [bands])
  | blank mem _ _ _ => exact mem.elim h.of_mem_eq .of_mem_nil
  | renumber => exact h
  | openNew => exact h.of_mem_eq rfl
  | mapSlot k f _ _ => exact h.of_mem_eq (by simp [State.mapSlot])
  | passBand k _ _ _ => exact h.of_mem_eq (by simp [State.passBand, State.freeSlot_mem])
  | discardSlot k => exact h.of_mem_eq (s.discardSlot_mem k)
  | autoClose => exact h.of_mem_eq rfl
  | freeAll i _ => exact h.of_mem_eq (s.freeAll_mem i)
  | writeRow op => exact h.writeRow op

/-! ## Distances of bands -/

theorem bandDist_self (ne : Band) : bandDist ne ne = 0 := by simp [bandDist]

/-- Bands at the same distance are the same band. -/
theorem bandDist_inj {a b ne : Band} (h : bandDist a ne = bandDist b ne) : a = b := by
  have := BitVec.eq_of_toNat_eq h
  bv_omega

/-- A band at distance 0 is next-emit. -/
theorem bandDist_eq_zero {a ne : Band} : bandDist a ne = 0 ↔ a = ne := by
  refine ⟨fun h => bandDist_inj (h.trans (bandDist_self ne).symm), ?_⟩
  rintro rfl
  exact bandDist_self a

/-- The distance of the next number. -/
theorem bandDist_succ {a ne : Band} (h : bandDist a ne < 65535) : bandDist (a + 1) ne = bandDist a ne + 1 := by
  simp only [bandDist] at *
  bv_omega

/-- The distance once next-emit has advanced past another band. -/
theorem bandDist_advance {a ne : Band} (h : a ≠ ne) : bandDist a (ne + 1) + 1 = bandDist a ne := by
  simp only [bandDist]
  bv_omega

/-! ## The laws of the numbering -/

theorem State.BandLaws.abortOk {s : State} (h : s.BandLaws) (i : StreamId) : (s.stream i).AbortOk := h.abort i

theorem State.BandLaws.none_held {s : State} (h : s.BandLaws) {i : StreamId}
    (hv : (s.stream i).Vacant ∨ s.holdsSlot i = false) (k : SlotId) (b : BandSlot) (hb : s.slot k = some b) :
    b.stream ≠ i :=
  hv.elim (fun hv => h.idle i hv k b hb) fun hv => State.holdsSlot_false.1 hv k b hb

/-- Calm changes of the streams keep the laws. -/
theorem State.BandLaws.calm {s t : State} (h : s.BandLaws) (bands : t.bands = s.bands)
    (hc : ∀ i, (s.stream i).Calm (t.stream i)) : t.BandLaws where
  live k b hb := by
    rw [State.slot_congr bands] at hb
    rw [(hc _).nextOpen, (hc _).nextEmit]
    exact h.live k b hb
  unique k k' b b' hb hb' := by
    rw [State.slot_congr bands] at hb hb'
    exact h.unique k k' b b' hb hb'
  sending k b hb hst := by
    rw [State.slot_congr bands] at hb
    rw [(hc _).nextEmit]
    exact h.sending k b hb hst
  exact_ i he n hn := by
    rw [(hc i).nextOpen, (hc i).nextEmit] at hn
    rw [(hc i).nextEmit]
    simpa only [State.slot_congr bands] using h.exact_ i ((hc i).emits he) n hn
  idle i hv k b hb := by
    rw [State.slot_congr bands] at hb
    exact h.idle i ((hc i).vacant (h.abortOk i) hv) k b hb
  abort i := (hc i).abort (h.abortOk i)

/-- The laws of a part whose slots are all FREE and whose streams do not emit. -/
theorem State.BandLaws.of_blank {t : State} (slots : t.bands.slots = Vector.replicate 64 none)
    (streams : t.streams = Vector.replicate 4 Stream.initial) : t.BandLaws := by
  have hk : ∀ k, t.slot k = none := fun k => by simp [State.slot, slots]
  have hs : ∀ i, t.stream i = Stream.initial := fun i => by simp [State.stream, streams]
  constructor
  · intro k b hb; simp [hk] at hb
  · intro k _ b _ hb; simp [hk] at hb
  · intro k b hb; simp [hk] at hb
  · intro i he; simp [hs, Stream.initial, Stream.emits, Stream.takesRecords] at he
  · intro i _ k b hb; simp [hk] at hb
  · intro i d hd; simp [hs, Stream.initial] at hd

/-- Renumbering a stream that holds no slot keeps the laws (R19, R34, R36, R39). -/
theorem State.BandLaws.renumber {s : State} (h : s.BandLaws) {i : StreamId} {y : Stream}
    (hv : (s.stream i).Vacant ∨ s.holdsSlot i = false) (hn : y.emits = true → y.nextOpen = y.nextEmit)
    (ha : (s.stream i).AbortOk → y.AbortOk) : (s.setStream i y).BandLaws := by
  have hi := h.none_held hv
  have hother : ∀ k b, s.slot k = some b → (s.setStream i y).stream b.stream = s.stream b.stream := fun k b hb => by
    simp [State.stream_setStream, hi k b hb]
  constructor
  · intro k b hb; rw [hother k b hb]; exact h.live k b hb
  · exact h.unique
  · intro k b hb; rw [hother k b hb]; exact h.sending k b hb
  · intro j he n hlt
    by_cases hj : j = i
    · simp only [State.stream_setStream, if_pos hj] at he hlt
      rw [hn he, bandDist_self] at hlt
      exact absurd hlt (Nat.not_lt_zero n)
    · simp only [State.stream_setStream, if_neg hj] at he hlt ⊢
      exact h.exact_ j he n hlt
  · intro j hvj k b hb
    by_cases hj : j = i
    · rw [hj]; exact hi k b hb
    · simp only [State.stream_setStream, if_neg hj] at hvj
      exact h.idle j hvj k b hb
  · intro j
    by_cases hj : j = i
    · simp only [State.stream_setStream, if_pos hj]; exact ha (h.abortOk i)
    · simp only [State.stream_setStream, if_neg hj]; exact h.abort j

/-- While a stream emits, it has at most 64 live numbers: each stands in a slot of its own (R9, R20). -/
theorem State.BandLaws.dist_le {s : State} (h : s.BandLaws) {i : StreamId} (he : (s.stream i).emits = true) :
    bandDist (s.stream i).nextOpen (s.stream i).nextEmit ≤ 64 := by
  let d := bandDist (s.stream i).nextOpen (s.stream i).nextEmit
  choose slot hold hb hi hn using fun n : Fin d => h.exact_ i he n.val n.isLt
  have inj : Function.Injective slot := fun m n e => by
    have hm := hb m
    rw [e, hb n, Option.some.injEq] at hm
    exact Fin.ext (by rw [← hn m, ← hn n, hm])
  simpa using Fintype.card_le_of_injective slot inj

/-- Opening a band advances next-open of its stream alone (R9). -/
theorem State.openNew_stream (i j : StreamId) (k : SlotId) (band : Band) (pages : Nat) (s : State) :
    (s.openNew i k band pages).stream j =
      if j = i then { s.stream i with nextOpen := (s.stream i).nextOpen + 1 } else s.stream j := by
  rw [State.openNew, State.stream_mapStream]; rfl

/-- A slot after a band is opened is the new one or an old one (R9). -/
theorem State.openNew_slot_cases {s : State} {i : StreamId} {k j : SlotId} {band : Band} {pages : Nat} {b : BandSlot}
    (h : (s.openNew i k band pages).slot j = some b) :
    (j = k ∧ b.stream = i ∧ b.band = band ∧ b.st = .opened) ∨ s.slot j = some b := by
  rw [State.openNew_slot] at h
  split at h
  · next hj => cases h; exact .inl ⟨hj, rfl, rfl, rfl⟩
  · exact .inr h

/-- Opening a band in a FREE slot leaves the others as they are (R9). -/
theorem State.openNew_slot_old {s : State} {i : StreamId} {k j : SlotId} {band : Band} {pages : Nat} {b : BandSlot}
    (hk : s.slot k = none) (hb : s.slot j = some b) : (s.openNew i k band pages).slot j = some b := by
  rw [State.openNew_slot, if_neg, hb]
  rintro rfl
  rw [hk] at hb
  cases hb

/-- No live band has the number next-open (R20). -/
theorem State.BandLaws.band_ne_nextOpen {s : State} (h : s.BandLaws) {k : SlotId} {b : BandSlot} (hb : s.slot k = some b) :
    b.band ≠ (s.stream b.stream).nextOpen := fun e => by
  have := h.live k b hb
  rw [e] at this
  exact Nat.lt_irrefl _ this

/-- A new band at next-open keeps the laws of the numbering (R9, R20). -/
theorem State.BandLaws.openNew {s : State} (h : s.BandLaws) {i : StreamId} {k : SlotId} (pages : Nat)
    (he : (s.stream i).emits = true) (hk : s.slot k = none) : (s.openNew i k (s.stream i).nextOpen pages).BandLaws := by
  have hsucc := bandDist_succ (Nat.lt_of_le_of_lt (h.dist_le he) (by decide : 64 < 65535))
  have hnew : ∀ j b, s.slot j = some b → b.stream = i → b.band ≠ (s.stream i).nextOpen := fun j b hb hi => by
    rw [← hi]; exact h.band_ne_nextOpen hb
  constructor
  · intro j b hb
    rcases State.openNew_slot_cases hb with ⟨_, hi, hband, _⟩ | hb
    · simp only [State.openNew_stream, hi, if_pos, hband, hsucc, Nat.lt_succ_self]
    · have := h.live j b hb
      by_cases hi : b.stream = i
      · rw [hi] at this
        simp only [State.openNew_stream, hi, if_pos, hsucc]
        omega
      · simpa only [State.openNew_stream, if_neg hi] using this
  · intro j j' b b' hb hb' hs hband
    rcases State.openNew_slot_cases hb with ⟨hj, hi, hn, _⟩ | hb <;>
      rcases State.openNew_slot_cases hb' with ⟨hj', hi', hn', _⟩ | hb'
    · rw [hj, hj']
    · exact absurd (hband.symm.trans hn) (hnew j' b' hb' (hs.symm.trans hi))
    · exact absurd (hband.trans hn') (hnew j b hb (hs.trans hi'))
    · exact h.unique j j' b b' hb hb' hs hband
  · intro j b hb hst
    rcases State.openNew_slot_cases hb with ⟨_, _, _, hop⟩ | hb
    · rw [hop] at hst; cases hst
    · rw [State.openNew_stream, h.sending j b hb hst]
      split
      · next hi => rw [hi]
      · rfl
  · intro j hej n hn
    by_cases hj : j = i
    · subst hj
      simp only [State.openNew_stream, if_pos, hsucc] at hn ⊢
      by_cases hlt : n < bandDist (s.stream j).nextOpen (s.stream j).nextEmit
      · obtain ⟨k', b, hb, hs, hd⟩ := h.exact_ j he n hlt
        exact ⟨k', b, State.openNew_slot_old hk hb, hs, hd⟩
      · refine ⟨k, _, by rw [State.openNew_slot, if_pos rfl], rfl, ?_⟩
        show bandDist (s.stream j).nextOpen (s.stream j).nextEmit = n
        omega
    · simp only [State.openNew_stream, if_neg hj] at hej hn ⊢
      obtain ⟨k', b, hb, hs, hd⟩ := h.exact_ j hej n hn
      exact ⟨k', b, State.openNew_slot_old hk hb, hs, hd⟩
  · intro j hv j' b hb
    rcases State.openNew_slot_cases hb with ⟨_, hi, _, _⟩ | hb
    · rintro hj
      rw [State.openNew_stream, if_pos (hj.symm.trans hi)] at hv
      revert hv he
      cases hx : (s.stream i).st <;> simp [Stream.emits, Stream.takesRecords, Stream.pastBands, hx]
    · refine h.idle j ?_ j' b hb
      rw [State.openNew_stream] at hv
      split at hv
      · next hj => rw [hj]; exact hv
      · exact hv
  · intro j
    have := h.abort j
    rw [State.openNew_stream]
    split
    · next hj => rw [hj] at this; exact this
    · exact this

end Sys2Proof.Machine
end

section
namespace Sys2Proof.Machine

/-- Slots that keep their streams and bands keep the laws, if none becomes SENDING but at next-emit (R10 to R13). -/
theorem State.BandLaws.map_slots {s t : State} (h : s.BandLaws) (f : SlotId → BandSlot → BandSlot)
    (hslot : ∀ k, t.slot k = (s.slot k).map (f k)) (hstream : ∀ i, t.stream i = s.stream i)
    (keeps : ∀ k b, (f k b).stream = b.stream ∧ (f k b).band = b.band)
    (sending : ∀ k b, s.slot k = some b → (f k b).st = .sending →
      b.st = .sending ∨ b.band = (s.stream b.stream).nextEmit) : t.BandLaws := by
  have hold : ∀ k b', t.slot k = some b' →
      ∃ b, s.slot k = some b ∧ b' = f k b ∧ b'.stream = b.stream ∧ b'.band = b.band := by
    intro k b' hb'
    rw [hslot, Option.map_eq_some_iff] at hb'
    obtain ⟨b, hb, rfl⟩ := hb'
    exact ⟨b, hb, rfl, keeps k b⟩
  constructor
  · intro k b' hb'
    obtain ⟨b, hb, _, hs, hn⟩ := hold k b' hb'
    rw [hstream, hs, hn]
    exact h.live k b hb
  · intro k j b' c' hb' hc' hs hn
    obtain ⟨b, hb, _, hbs, hbn⟩ := hold k b' hb'
    obtain ⟨c, hc, _, hcs, hcn⟩ := hold j c' hc'
    exact h.unique k j b c hb hc (by rw [← hbs, ← hcs, hs]) (by rw [← hbn, ← hcn, hn])
  · intro k b' hb' hst
    obtain ⟨b, hb, e, hs, hn⟩ := hold k b' hb'
    rw [hstream, hs, hn]
    exact (sending k b hb (e ▸ hst)).elim (h.sending k b hb) id
  · intro i he n hn
    rw [hstream] at he hn ⊢
    obtain ⟨k, b, hb, hs, hd⟩ := h.exact_ i he n hn
    exact ⟨k, f k b, by rw [hslot, hb]; rfl, (keeps k b).1.trans hs, by rw [(keeps k b).2, hd]⟩
  · intro i hv k b' hb'
    obtain ⟨b, hb, _, hs, _⟩ := hold k b' hb'
    rw [hstream] at hv
    rw [hs]
    exact h.idle i hv k b hb
  · intro i
    rw [hstream]
    exact h.abort i

/-- A change of one slot keeps the laws, if it does not become SENDING but at next-emit. -/
theorem State.BandLaws.mapSlot {s : State} (h : s.BandLaws) {k : SlotId} {f : BandSlot → BandSlot}
    (keeps : ∀ b, (f b).stream = b.stream ∧ (f b).band = b.band)
    (sending : ∀ b, s.slot k = some b → (f b).st = .sending →
      b.st = .sending ∨ b.band = (s.stream b.stream).nextEmit) : (s.mapSlot k f).BandLaws := by
  refine h.map_slots (fun j => if j = k then f else id) (fun j => ?_) (fun i => State.stream_congr (by simp) i) ?_ ?_
  · rw [State.slot_mapSlot]
    by_cases hj : j = k
    · simp [hj]
    · simp [hj]
  · intro j b
    by_cases hj : j = k
    · simpa [hj] using keeps b
    · simp [hj]
  · intro j b hb hst
    by_cases hj : j = k
    · subst hj; simp only [if_pos] at hst; exact sending b hb hst
    · simp only [if_neg hj, id] at hst; exact .inl hst

/-- A discarded slot, which is CLOSED, keeps the laws (R12). -/
theorem State.BandLaws.discardSlot {s : State} (h : s.BandLaws) (k : SlotId) : (s.discardSlot k).BandLaws := by
  refine h.map_slots (fun j => if j = k then fun b =>
      { b with st := .closed, blank := true, notify := false, tag := none, pages := [] } else id)
    (fun j => ?_) (fun i => State.stream_congr (by simp) i) ?_ ?_
  · rw [State.discardSlot_slot]
    by_cases hj : j = k
    · simp [hj]
    · simp [hj]
  · intro j b
    by_cases hj : j = k <;> simp [hj]
  · intro j b _ hst
    by_cases hj : j = k
    · simp [hj] at hst
    · simp only [if_neg hj, id] at hst; exact .inl hst

/-- Drain auto-close keeps the laws (R11). -/
theorem State.BandLaws.autoClose {s : State} (h : s.BandLaws) (i : StreamId) : (s.autoClose i).BandLaws := by
  refine h.map_slots (fun _ b => if b.stream = i ∧ b.st = .opened then
      { b with st := .closed, autoClosed := true, notify := false, tag := none } else b)
    (fun j => s.autoClose_slot i j) (fun _ => rfl) (fun _ b => ?_) fun _ b _ hst => ?_
  · split <;> exact ⟨rfl, rfl⟩
  · split at hst
    · cases hst
    · exact .inl hst

/-- The leaving of a SENDING slot advances next-emit of its stream alone (R14). -/
theorem State.passBand_stream (i j : StreamId) (k : SlotId) (s : State) :
    (s.passBand i k).stream j = if j = i then (s.stream i).advanceEmit else s.stream j := by
  rw [State.passBand, State.stream_mapStream]
  simp only [State.stream_congr (State.freeSlot_frame k s).2.2.2.1]

/-- The slots after one has left: it is FREE, the others are as they were (R14). -/
theorem State.passBand_slot {i : StreamId} {k j : SlotId} {s : State} {c : BandSlot} :
    (s.passBand i k).slot j = some c ↔ j ≠ k ∧ s.slot j = some c := by
  rw [State.passBand, State.mapStream_slot, State.freeSlot_slot]
  split
  · next hj => simp [hj]
  · next hj => simp [hj]

/-- The slot that leaves is at next-emit, so the numbering stays exact as next-emit advances (R13, R14, R20). -/
theorem State.BandLaws.passBand {s : State} (h : s.BandLaws) {k : SlotId} {b : BandSlot} (hb : s.slot k = some b)
    (hst : b.st = .sending) : (s.passBand b.stream k).BandLaws := by
  have hat := h.sending k b hb hst
  have hne : ∀ j c, j ≠ k → s.slot j = some c → c.stream = b.stream → c.band ≠ (s.stream b.stream).nextEmit :=
    fun j c hj hc hs e => hj (h.unique j k c b hc hb hs (e.trans hat.symm))
  have hopen : (s.stream b.stream).nextOpen ≠ (s.stream b.stream).nextEmit := fun e => by
    have := h.live k b hb
    rw [e, bandDist_self] at this
    exact Nat.not_lt_zero _ this
  have hadv := bandDist_advance hopen
  constructor
  · intro j c hc
    obtain ⟨hj, hc⟩ := State.passBand_slot.1 hc
    have hlive := h.live j c hc
    by_cases hs : c.stream = b.stream
    · have := bandDist_advance (hne j c hj hc hs)
      rw [hs] at hlive
      simp only [State.passBand_stream, if_pos hs, Stream.advanceEmit]
      omega
    · simpa only [State.passBand_stream, if_neg hs] using hlive
  · intro j j' c c' hc hc'
    exact h.unique j j' c c' (State.passBand_slot.1 hc).2 (State.passBand_slot.1 hc').2
  · intro j c hc hsend
    obtain ⟨hj, hc⟩ := State.passBand_slot.1 hc
    have hce := h.sending j c hc hsend
    by_cases hs : c.stream = b.stream
    · rw [hs] at hce
      exact absurd hce (hne j c hj hc hs)
    · simpa only [State.passBand_stream, if_neg hs] using hce
  · intro i he n hn
    by_cases hi : i = b.stream
    · subst hi
      simp only [State.passBand_stream, if_pos, Stream.advanceEmit] at he hn ⊢
      obtain ⟨j, c, hc, hs, hd⟩ := h.exact_ b.stream he (n + 1) (by omega)
      have hj : j ≠ k := by
        rintro rfl
        rw [hb, Option.some.injEq] at hc
        rw [← hc, bandDist_eq_zero.2 hat] at hd
        exact absurd hd (Nat.succ_ne_zero n).symm
      have := bandDist_advance (hne j c hj hc hs)
      exact ⟨j, c, State.passBand_slot.2 ⟨hj, hc⟩, hs, by omega⟩
    · simp only [State.passBand_stream, if_neg hi] at he hn ⊢
      obtain ⟨j, c, hc, hs, hd⟩ := h.exact_ i he n hn
      have hj : j ≠ k := by
        rintro rfl
        rw [hb, Option.some.injEq] at hc
        exact hi (hs.symm.trans (by rw [hc]))
      exact ⟨j, c, State.passBand_slot.2 ⟨hj, hc⟩, hs, hd⟩
  · intro i hv j c hc
    refine h.idle i ?_ j c (State.passBand_slot.1 hc).2
    rw [State.passBand_stream] at hv
    split at hv
    · next hi => rw [hi]; exact hv
    · exact hv
  · intro i
    have := h.abort i
    rw [State.passBand_stream]
    split
    · next hi => rw [hi] at this; exact this
    · exact this

/-- Freeing all slots of a stream that does not emit keeps the laws (R7, R17). -/
theorem State.BandLaws.freeAll {s : State} (h : s.BandLaws) {i : StreamId} (hi : (s.stream i).emits = false) :
    (s.freeAll i).BandLaws := by
  have hstream : ∀ j, (s.freeAll i).stream j = s.stream j := State.stream_congr (by simp)
  have hslot : ∀ k b, (s.freeAll i).slot k = some b ↔ s.slot k = some b ∧ b.stream ≠ i := fun k b => by
    simp [State.freeAll_slot, Option.filter_eq_some_iff]
  constructor
  · intro k b hb
    rw [hstream]
    exact h.live k b ((hslot k b).1 hb).1
  · intro k k' b b' hb hb'
    exact h.unique k k' b b' ((hslot k b).1 hb).1 ((hslot k' b').1 hb').1
  · intro k b hb hst
    rw [hstream]
    exact h.sending k b ((hslot k b).1 hb).1 hst
  · intro j he n hn
    rw [hstream] at he hn ⊢
    obtain ⟨k, b, hb, hs, hd⟩ := h.exact_ j he n hn
    refine ⟨k, b, (hslot k b).2 ⟨hb, ?_⟩, hs, hd⟩
    rintro e
    rw [← hs, e, hi] at he
    cases he
  · intro j hv k b hb
    rw [hstream] at hv
    exact h.idle j hv k b ((hslot k b).1 hb).1
  · intro j
    rw [hstream]
    exact h.abort j

/-- Every move keeps the laws of the bands' numbering (R9, R13, R19, R20, R49). -/
theorem State.BandMove.keeps_bandLaws {s t : State} (m : s.BandMove t) (h : s.BandLaws) : t.BandLaws := by
  cases m with
  | calm bands streams => exact h.calm bands streams
  | blank _ _ slots streams => exact .of_blank slots streams
  | renumber i y none_held numbers abort => exact h.renumber none_held numbers abort
  | openNew i k pages emits free => exact h.openNew pages emits free
  | mapSlot k f keeps sending => exact h.mapSlot (fun b => ⟨(keeps b).1, (keeps b).2.1⟩) sending
  | passBand k b held sending => exact h.passBand held sending
  | discardSlot k => exact h.discardSlot k
  | autoClose i => exact h.autoClose i
  | freeAll i silent => exact h.freeAll silent
  | writeRow op =>
    exact h.map_slots (fun _ => id) (fun k => by simp [State.slot, Op.writeRow]) (fun _ => rfl) (fun _ _ => ⟨rfl, rfl⟩)
      fun _ _ _ hst => .inl hst

/-! ## Sequences of moves -/

/-- What a step does to the bands: some moves, one after another. -/
def State.BandMoves : State → State → Prop := Relation.ReflTransGen State.BandMove

/-- A property that every move keeps is kept by a sequence of them. -/
theorem State.BandMoves.keeps {P : State → Prop} (hP : ∀ s t : State, s.BandMove t → P s → P t) {s t : State}
    (m : s.BandMoves t) (h : P s) : P t := by
  induction m with
  | refl => exact h
  | tail _ m ih => exact hP _ _ m ih

theorem State.BandMove.moves {s t : State} (m : s.BandMove t) : s.BandMoves t := .single m

theorem State.BandMoves.then {s t u : State} (m : s.BandMoves t) (m' : t.BandMoves u) : s.BandMoves u := m.trans m'

/-- Changes outside the bands and the streams are no move of theirs. -/
theorem State.BandMoves.of_frame {s t : State} (bands : t.bands = s.bands) (streams : t.streams = s.streams) :
    s.BandMoves t :=
  State.BandMove.moves <| .calm bands fun i => by rw [State.stream_congr streams]; exact .refl _

/-- The same after some moves. -/
theorem State.BandMoves.frame {s t u : State} (m : s.BandMoves t) (bands : u.bands = t.bands)
    (streams : u.streams = t.streams) : s.BandMoves u :=
  m.then (.of_frame bands streams)

/-- A calm change of one stream. -/
theorem State.BandMoves.mapStream {s : State} {i : StreamId} {f : Stream → Stream}
    (hf : (s.stream i).Calm (f (s.stream i))) : s.BandMoves (s.mapStream i f) :=
  State.BandMove.moves <| .calm rfl fun j => by
    by_cases hj : j = i
    · subst hj; simpa using hf
    · rw [State.stream_mapStream_ne f s hj]; exact .refl _

/-- A new numbering of a stream that holds no slot. -/
theorem State.BandMoves.renumber {s : State} {i : StreamId} {f : Stream → Stream}
    (hv : (s.stream i).Vacant ∨ s.holdsSlot i = false)
    (hn : (f (s.stream i)).emits = true → (f (s.stream i)).nextOpen = (f (s.stream i)).nextEmit)
    (ha : (s.stream i).AbortOk → (f (s.stream i)).AbortOk) : s.BandMoves (s.mapStream i f) :=
  State.BandMove.moves (.renumber i _ hv hn ha)

end Sys2Proof.Machine
end

section
namespace Sys2Proof.Machine

/-! ## What each shared operation does to the bands -/

theorem Stream.emits_iff {x : Stream} : x.emits = true ↔ x.st = .running ∨ x.st = .draining ∨ x.st = .halted := by
  simp [Stream.emits, Stream.takesRecords, or_assoc]

theorem Stream.emits_of_takesRecords {x : Stream} (h : x.takesRecords = true) : x.emits = true := by
  simp [Stream.emits, h]

/-- A stream that emits may hold slots. -/
theorem Stream.not_vacant_of_emits {x : Stream} (h : x.emits = true) : ¬x.Vacant := by
  rcases Stream.emits_iff.1 h with e | e | e <;> simp [Stream.Vacant, Stream.pastBands, e]

theorem Stream.not_aborting_of_emits {x : Stream} (h : x.emits = true) : x.st ≠ .aborting := by
  rcases Stream.emits_iff.1 h with e | e | e <;> simp [e]

/-- A change between states that emit is calm (R37, R41, R43). -/
theorem Stream.Calm.of_emits {x y : Stream} (hx : x.emits = true) (hy : y.emits = true) (ho : y.nextOpen = x.nextOpen)
    (he : y.nextEmit = x.nextEmit) (hd : y.dabort = x.dabort) : x.Calm y := by
  refine .of_move ho he (fun _ => hx) (fun hv => absurd hv (Stream.not_vacant_of_emits hy)) fun ha => ?_
  refine Stream.abortOk_of_not_due fun d hyd => ?_
  exact ha.not_due (.inl (Stream.not_aborting_of_emits hx)) d (hd ▸ hyd)

theorem State.admitOffer_bands (p : Producer) (s : State) : (s.admitOffer p).bands = s.bands := by
  cases p <;> simp

theorem State.admitOffer_moves (p : Producer) (s : State) : s.BandMoves (s.admitOffer p) :=
  State.BandMove.moves <| .calm (s.admitOffer_bands p) fun j => by
    rw [State.admit_stream]
    split
    · exact Stream.admitted_calm _
    · exact .refl _

theorem State.offerStream_moves (i : StreamId) (s : State) : s.BandMoves (s.offerStream i) :=
  State.offerStream_keeps s.BandMoves i (fun t h _ => h.then (t.admitOffer_moves _)) s .refl

theorem State.emptyLatch_moves (i : StreamId) (s : State) : s.BandMoves (s.emptyLatch i) :=
  (State.BandMoves.mapStream (f := fun st => { st with latch := .empty }) (.of_eq rfl rfl rfl rfl rfl)).frame rfl rfl

theorem State.halt_moves (i : StreamId) (info : HaltInfo) (s : State) : s.BandMoves (s.halt i info) := by
  unfold State.halt
  split
  case h_1 hst =>
    exact (State.BandMoves.mapStream
      (.of_emits (Stream.emits_iff.2 (.inl hst)) (Stream.emits_iff.2 (.inr (.inr rfl))) rfl rfl rfl)).then
        (State.emptyLatch_moves i _)
  case h_2 hst =>
    exact (State.BandMoves.mapStream
      (.of_emits (Stream.emits_iff.2 (.inr (.inl hst))) (Stream.emits_iff.2 (.inr (.inr rfl))) rfl rfl rfl)).then
        (State.emptyLatch_moves i _)
  all_goals exact .refl

theorem State.drainEnd_moves {i : StreamId} {s : State} (h : s.drainEnds i = true) : s.BandMoves (s.drainEnd i) := by
  simp only [State.drainEnds, Bool.and_eq_true, beq_iff_eq, Bool.not_eq_true'] at h
  obtain ⟨⟨⟨⟨⟨_, hst⟩, _⟩, hslots⟩, _⟩, _⟩ := h
  refine State.BandMoves.then ?_ (State.offerStream_moves i _)
  refine State.BandMoves.frame (State.BandMoves.renumber (.inr hslots) ?_ fun ha => ?_)
    (State.mapLane_bands _ _ _) (State.mapLane_streams _ _ _)
  · simp [Stream.emits, Stream.takesRecords]
  · exact Stream.abortOk_of_not_due (ha.not_due (.inl (by simp [hst])))

theorem State.lookForDrainEnd_moves (i : StreamId) (s : State) : s.BandMoves (s.lookForDrainEnd i) := by
  unfold State.lookForDrainEnd
  split
  · next h => exact State.drainEnd_moves h
  · exact .refl

/-- The slot found is SENDING and the stream's (R13). -/
theorem State.sendingSlot_some {s : State} {i : StreamId} {k : SlotId} (h : s.sendingSlot i = some k) :
    ∃ b, s.slot k = some b ∧ b.stream = i ∧ b.st = .sending := by
  obtain ⟨b, hb, hp⟩ := State.findSlot_some h
  exact ⟨b, hb, by simpa using hp⟩

theorem State.passBand_moves {i : StreamId} {k : SlotId} {s : State} (h : s.sendingSlot i = some k) :
    s.BandMoves (s.passBand i k) := by
  obtain ⟨b, hb, rfl, hst⟩ := State.sendingSlot_some h
  exact State.BandMove.moves (.passBand k b hb hst)

theorem State.skipBand_moves {i : StreamId} {k : SlotId} {s : State} (h : s.sendingSlot i = some k) :
    s.BandMoves (s.skipBand i k) :=
  (State.passBand_moves h).then (State.offerStream_moves i _)

theorem State.sentBand_moves {i : StreamId} {k : SlotId} {s : State} (h : s.sendingSlot i = some k) :
    s.BandMoves (s.sentBand i k) := by
  unfold State.sentBand
  split
  · exact .refl
  · exact (State.skipBand_moves h).frame (by simp [State.skipBand]) (by simp [State.skipBand])

theorem State.bandEmitted_moves (i : StreamId) (s : State) : s.BandMoves (s.bandEmitted i) := by
  simp only [State.bandEmitted]
  split
  · exact State.BandMoves.of_frame (by simp) (by simp)
  · next h => exact (State.sentBand_moves h).frame (by simp) (by simp)

theorem State.acceptTaken_moves (i : StreamId) (o : Outstanding) (s : State) : s.BandMoves (s.acceptTaken i o) := by
  simp only [State.acceptTaken]
  split
  case h_4 => exact (State.BandMoves.of_frame (by simp) (by simp)).then (State.bandEmitted_moves i _)
  all_goals
    refine .of_frame ?_ ?_ <;> repeat' split
    all_goals simp

theorem State.reply_moves {i : StreamId} {seq : Seq} {taken : Outstanding → State → State} {s : State}
    (h : ∀ o, s.BandMoves (taken o s)) : s.BandMoves (s.reply i seq taken) := by
  unfold State.reply
  split
  · exact .of_frame (by simp) (by simp)
  · split
    · exact h _
    · exact .of_frame (by simp) (by simp)

theorem State.consumeRecord_moves (i : StreamId) (s : State) : s.BandMoves (s.consumeRecord i) :=
  (State.BandMoves.mapStream (f := fun st => { st with latch := .empty, ring := st.ring.map Ring.advance })
    (.of_eq rfl rfl rfl rfl rfl)).frame rfl rfl

theorem State.finishRecord_moves (h : Hand) (owed : Bool) (st : Status) (extra : BitVec 32) (s : State) :
    s.BandMoves (s.finishRecord h owed st extra) := by
  refine (s.consumeRecord_moves h.stream).frame ?_ ?_ <;> simp only [State.finishRecord] <;> split <;> simp

theorem State.failRecord_moves (h : Hand) (st : Status) (band : Option Band) (s : State) :
    s.BandMoves (s.failRecord h st band) :=
  ((s.consumeRecord_moves h.stream).then (State.halt_moves _ _ _)).frame (State.holdEntry_frame _ _ _).2.2.2.2.1
    (State.holdEntry_frame _ _ _).2.2.1

theorem State.ringFault_moves (i : StreamId) (n : Nat) (s : State) : s.BandMoves (s.ringFault i n) :=
  State.BandMoves.frame (.then (t := { s with intake := s.intake.turn i }) (.of_frame rfl rfl) (State.halt_moves _ _ _))
    (State.holdEntry_frame _ _ _).2.2.2.2.1 (State.holdEntry_frame _ _ _).2.2.1

theorem State.skipRecord_moves (h : Hand) (k : RecKind) (s : State) : s.BandMoves (s.skipRecord h k) :=
  (State.BandMoves.mapStream (.of_eq rfl rfl rfl rfl rfl)).then (State.finishRecord_moves _ _ _ _ _)

/-- A chosen record is of a stream that takes records (R63). -/
theorem State.handOverChoice_takesRecords {s : State} {i : StreamId} (h : s.handOverChoice = some i) :
    (s.stream i).takesRecords = true := by
  unfold State.handOverChoice at h
  split at h
  · have := List.find?_some h
    simp only [Bool.and_eq_true] at this
    exact this.1
  · cases h

theorem State.handFor_takesRecords {s : State} {row : Verdict → List Byte → Bool} {h : Hand}
    (hh : s.handFor row = some h) : (s.stream h.stream).takesRecords = true := by
  unfold State.handFor at hh
  split at hh
  · cases hh
  · next i hi =>
    split at hh
    · split at hh
      · cases hh; exact State.handOverChoice_takesRecords hi
      · cases hh
    · cases hh

/-- A record's hand-over moves the bands as its kind's effect does, for the stream the arbiter chose (R63, R65). -/
theorem State.handOver_moves {k : RecKind} {effect : Hand → State → State} {s : State}
    (h : ∀ h : Hand, (s.stream h.stream).takesRecords = true → s.BandMoves (effect h s)) :
    s.BandMoves (s.handOver k effect) := by
  unfold State.handOver
  split
  · exact .refl
  · next hand hh =>
    split
    · exact s.failRecord_moves _ _ _
    · split
      · exact s.skipRecord_moves _ _
      · exact h hand (State.handFor_takesRecords hh)

theorem State.beginOp_moves (h : Hand) (kind : OpKind) (slot : SlotId) (area : Area) (s : State) :
    s.BandMoves (s.beginOp h kind slot area) :=
  (s.consumeRecord_moves h.stream).frame (by simp [State.beginOp]) (by simp [State.beginOp])

theorem State.onOpen_moves {h : Hand} {effect : SlotId → State → State} {s : State}
    (he : ∀ k, s.BandMoves (effect k s)) : s.BandMoves (s.onOpen h effect) := by
  unfold State.onOpen
  split
  · exact s.failRecord_moves _ _ _
  · exact he _

theorem State.opFaults_moves (op : Op) (s : State) : s.BandMoves (s.opFaults op) := by
  simp only [State.opFaults]
  split
  · exact .of_frame rfl rfl
  · refine State.BandMoves.frame (.then ?_ (State.halt_moves op.stream _ (s.mapSlot op.slot _)))
      (State.admitAsMade_raster_frame _).2.2.2.2.1 (State.admitAsMade_raster_frame _).2.2.1
    exact State.BandMove.moves (.mapSlot _ _ (fun _ => ⟨rfl, rfl, rfl⟩) fun _ _ hst => .inl hst)

theorem State.writeRow_moves (op : Op) (s : State) : s.BandMoves (s.writeRow op) :=
  (State.BandMove.moves (.writeRow op)).frame (State.opGoesOn_frame _ _).2.2.2.1 (State.opGoesOn_frame _ _).2.1

theorem State.sourceFinishes_moves (off : Nat) (res : Option (List Byte)) (op : Op) (s : State) :
    s.BandMoves (s.sourceFinishes off res op) := by
  simp only [State.sourceFinishes]
  split
  · split
    · exact State.opFaults_moves _ _
    · exact .of_frame rfl rfl
  · split <;> split
    · exact State.opFaults_moves _ _
    · exact .of_frame rfl rfl
    · exact State.writeRow_moves _ _
    · exact .of_frame rfl rfl

/-! ## The part's operations -/

theorem State.functionReset_moves (s : State) : s.BandMoves s.functionReset :=
  State.BandMove.moves (.blank (.inl rfl) rfl rfl rfl)

theorem State.detachBegins_moves (s : State) : s.BandMoves s.detachBegins :=
  State.BandMove.moves <| .calm rfl fun i => by
    simpa [State.detachBegins, State.stream] using Stream.abandoned_calm (s.stream i)

theorem State.attachZero_moves (s : State) : s.BandMoves s.attachZero := by
  unfold State.attachZero
  split
  case h_2 => refine .of_frame ?_ ?_ <;> split <;> (try split) <;> simp
  case h_3 => exact s.detachBegins_moves
  case h_5 => exact s.detachBegins_moves
  all_goals exact .refl

theorem State.writeControl_moves (value : BitVec 32) (s : State) : s.BandMoves (s.writeControl value) := by
  unfold State.writeControl
  split
  · exact s.functionReset_moves
  · split
    · exact .of_frame (by simp) (by simp)
    · exact s.attachZero_moves

theorem State.attachEnds_moves (res : Option (List Byte)) (s : State) : s.BandMoves (s.attachEnds res) := by
  unfold State.attachEnds
  split
  · exact .of_frame (by simp) (by simp)
  · split
    · exact .of_frame (by simp) (by simp)
    · split
      · exact State.BandMove.moves (.blank (.inl rfl) rfl rfl rfl)
      · exact .of_frame (by simp) (by simp)

theorem State.recordReadEnds_moves (res : Option (List Byte)) (s : State) : s.BandMoves (s.recordReadEnds res) := by
  unfold State.recordReadEnds
  split
  · exact .refl
  · simp only
    split
    · exact .of_frame rfl rfl
    · refine State.BandMoves.then (t := { s with intake := { s.intake with fetchRead := none } }) (.of_frame rfl rfl)
        (.mapStream ?_)
      repeat' split
      all_goals exact .of_eq rfl rfl rfl rfl rfl

theorem State.sourceReadEnds_moves (off : Nat) (res : Option (List Byte)) (s : State) :
    s.BandMoves (s.sourceReadEnds off res) := by
  unfold State.sourceReadEnds
  split
  · split
    · exact s.sourceFinishes_moves _ _ _
    · exact .refl
  all_goals exact .refl

theorem State.readEnds_moves (r : ReadReq) (res : Option (List Byte)) (s : State) : s.BandMoves (s.readEnds r res) := by
  unfold State.readEnds
  refine State.BandMoves.then
    (t := { s with port := { s.port with outstanding := s.port.outstanding.filter fun q => q.id != r.id } })
    (.of_frame rfl rfl) ?_
  simp only
  split
  · split
    · exact State.attachEnds_moves _ _
    · exact .refl
  · exact .of_frame (by simp) (by simp)
  · exact State.recordReadEnds_moves _ _
  · exact State.sourceReadEnds_moves _ _ _

theorem State.takeCompletion_moves (id offset : Nat) (data : List Byte) (good : Bool) (s : State) :
    s.BandMoves (s.takeCompletion id offset data good) := by
  simp only [State.takeCompletion]
  split
  · exact .refl
  · split
    · exact .refl
    · split
      · split
        · exact s.readEnds_moves _ _
        · exact .of_frame rfl rfl
      · exact s.readEnds_moves _ _

theorem State.setStreamTail_moves (i : StreamId) (r : Ring) (index : Nat) (s : State) :
    s.BandMoves (s.setStreamTail i r index) := by
  have tail : s.BandMoves (s.mapStream i fun st => { st with ring := some { r with tail := index } }) :=
    .mapStream (.of_eq rfl rfl rfl rfl rfl)
  simp only [State.setStreamTail]
  split
  · exact tail.then (State.emptyLatch_moves i _)
  · exact tail

theorem State.notify_moves (queue : BitVec 8) (index : BitVec 16) (s : State) : s.BandMoves (s.notify queue index) := by
  have reject : s.BandMoves s.rejectNotify := .of_frame (by simp) (by simp)
  simp only [State.notify]
  split
  · exact reject
  split
  · split
    · split
      · exact .of_frame (by simp) (by simp)
      · exact reject
    · exact reject
  split
  · split
    · exact reject
    · split
      · split
        · exact s.setStreamTail_moves _ _ _
        · exact reject
      · exact reject
  split
  · split
    · split
      · exact .of_frame rfl rfl
      · exact reject
    · exact reject
  · exact reject

theorem State.writeRegister_moves (offset : BitVec 12) (size : Nat) (value : BitVec 32) (s : State) :
    s.BandMoves (s.writeRegister offset size value) := by
  unfold State.writeRegister
  split
  · exact .refl
  · split
    · exact s.writeControl_moves _
    · exact .of_frame rfl rfl
    · exact .of_frame rfl rfl
    · exact s.notify_moves _ _
    · exact .of_frame (by simp) (by simp)
    · exact .of_frame (by simp) (by simp)
    · exact .refl

/-! ## The admin commands -/

/-- The completion of a command is no move of the bands (R29). -/
theorem State.BandMoves.complete {s t : State} (m : s.BandMoves t) (a : AdminCmd) (st : Status) (extra : BitVec 32) :
    s.BandMoves (t.complete a st extra) :=
  m.frame (by simp) (by simp)

/-- Nor is its consumption without one (R29). -/
theorem State.BandMoves.leaveCommand {s t : State} (m : s.BandMoves t) (a : AdminCmd) : s.BandMoves (t.leaveCommand a) :=
  m.frame rfl rfl

/-- A change of a lane is no move of the bands. -/
theorem State.BandMoves.mapLane {s t : State} (m : s.BandMoves t) (i : StreamId) (f : Lane → Lane) :
    s.BandMoves (t.mapLane i f) :=
  m.frame rfl rfl

/-- Nor is a lane's synchronisation (R106). -/
theorem State.BandMoves.enterSyncing {s t : State} (m : s.BandMoves t) (i : StreamId) : s.BandMoves (t.enterSyncing i) :=
  m.mapLane i _

/-- A command moves the bands as its effect does, for a stream in a state that takes it (R30). -/
theorem State.runCommand_moves {a : AdminCmd} {c : Command} {taken : Stream → Lane → Bool} {fieldsOk : Bool}
    {effect : StreamId → State → State} {s : State}
    (h : ∀ i, taken (s.stream i) (s.lane i) = true → s.BandMoves (effect i s)) :
    s.BandMoves (s.runCommand a c taken fieldsOk effect) := by
  simp only [State.runCommand]
  split
  · split
    · exact .complete .refl a _ _
    · next ht =>
      split
      · exact .complete .refl a _ _
      · exact h _ (by simpa using ht)
  · exact .complete .refl a _ _

theorem Stream.configured_moves {i : StreamId} {s : State} (r : Ring) (c : StreamCfg)
    (h : ((s.stream i).st == .unconfigured || (s.stream i).st == .ready) = true) :
    s.BandMoves (s.mapStream i (Stream.configured r c)) := by
  simp only [Bool.or_eq_true, beq_iff_eq] at h
  refine .renumber (.inl (h.imp id .inl)) (fun _ => rfl) fun ha => Stream.abortOk_of_not_due (ha.not_due (.inl ?_))
  rcases h with h | h <;> simp [h]

theorem Stream.resumed_moves {i : StreamId} {s : State} (h : ((s.stream i).st == .halted) = true) :
    s.BandMoves (s.mapStream i Stream.resumed) := by
  refine .mapStream (.of_emits (Stream.emits_iff.2 (.inr (.inr (by simpa using h)))) ?_ rfl rfl rfl)
  simp only [Stream.emits_iff, Stream.resumed]
  split <;> simp

end Sys2Proof.Machine
end

section
namespace Sys2Proof.Machine

/-! ## What each row does to the bands -/

theorem execConfigureStream_moves {s t : State} (h : execConfigureStream s = .next t) : s.BandMoves t := by
  unfold execConfigureStream at h
  split at h <;> cases h
  · exact .refl
  · refine State.runCommand_moves fun i hi => ?_
    split
    · exact .complete .refl _ _ _
    · split
      · exact .complete .refl _ _ _
      · exact .complete (Stream.configured_moves _ _ hi) _ _ _

theorem execReleaseStream_moves {s t : State} (h : execReleaseStream s = .next t) : s.BandMoves t := by
  unfold execReleaseStream at h
  split at h <;> cases h
  · exact .refl
  · refine State.runCommand_moves fun i hi => .complete (.mapLane (.renumber ?_ ?_ ?_) i _) _ _ _
    · exact .inl (.inr (.inl (by simpa using hi)))
    · exact fun _ => rfl
    · exact fun _ => Stream.abortOk_of_not_due fun d hd => by cases hd

theorem execStartStream_moves {s t : State} (h : execStartStream s = .next t) : s.BandMoves t := by
  unfold execStartStream at h
  split at h <;> cases h
  · exact .refl
  · refine State.runCommand_moves fun i hi => .complete (.enterSyncing (.mapLane (.renumber ?_ ?_ ?_) i _) i) _ _ _
    · exact .inl (.inr (.inl (by simpa using hi)))
    · exact fun _ => rfl
    · exact fun ha => Stream.abortOk_of_not_due (ha.not_due (.inl (by simp [eq_of_beq hi])))

theorem execStopStream_moves {s t : State} (h : execStopStream s = .next t) : s.BandMoves t := by
  unfold execStopStream at h
  split at h <;> cases h
  · exact .refl
  · refine State.runCommand_moves fun i hi => ?_
    split
    · exact .complete .refl _ _ _
    · next hready =>
      split
      · next hrun =>
        exact .leaveCommand (.mapStream
          (.of_emits (Stream.emits_iff.2 (.inl hrun)) (Stream.emits_iff.2 (.inr (.inl rfl))) rfl rfl rfl)) _
      · exact .leaveCommand (.mapStream (.of_eq rfl rfl rfl rfl rfl)) _

theorem execAbortStream_moves {s t : State} (h : execAbortStream s = .next t) : s.BandMoves t := by
  unfold execAbortStream at h
  split at h <;> cases h
  · exact .refl
  · refine State.runCommand_moves fun i _ => ?_
    split
    · exact .complete (.mapStream (.of_eq rfl rfl rfl rfl rfl)) _ _ _
    · refine .frame (.then (.mapStream (.of_move rfl rfl ?_ ?_ ?_)) (State.emptyLatch_moves i _)) rfl rfl
      · simp [Stream.emits, Stream.takesRecords]
      · simp [Stream.Vacant, Stream.pastBands]
      · exact fun _ => Stream.abortOk_of_not_due fun d hd => by cases hd; rfl

theorem execClearStreamResume_moves {s t : State} (h : execClearStreamResume s = .next t) : s.BandMoves t := by
  unfold execClearStreamResume at h
  split at h <;> cases h
  · exact .refl
  · exact State.runCommand_moves fun i hi =>
      .complete (.then (Stream.resumed_moves hi) (State.lookForDrainEnd_moves i _)) _ _ _

theorem execClearStreamSkipBand_moves {s t : State} (h : execClearStreamSkipBand s = .next t) : s.BandMoves t := by
  unfold execClearStreamSkipBand at h
  split at h <;> cases h
  · exact .refl
  · refine State.runCommand_moves fun i hi => ?_
    have resumed := Stream.resumed_moves hi
    have only : s.BandMoves ((s.mapStream i Stream.resumed).lookForDrainEnd i) :=
      resumed.then (State.lookForDrainEnd_moves i _)
    simp only
    split
    · exact .complete only _ _ _
    · split
      · exact .complete only _ _ _
      · next k _ =>
        refine .complete (.then (resumed.then ?_) (State.lookForDrainEnd_moves i _)) _ _ _
        exact (State.BandMove.moves (.discardSlot k)).then (.mapStream (.of_eq rfl rfl rfl rfl rfl))

theorem execClearLaneResend_moves {s t : State} (h : execClearLaneResend s = .next t) : s.BandMoves t := by
  unfold execClearLaneResend at h
  split at h <;> cases h
  · exact .refl
  · exact State.runCommand_moves fun i _ =>
      .complete (.then (.enterSyncing .refl i) (State.lookForDrainEnd_moves i _)) _ _ _

theorem execClearLaneSkip_moves {s t : State} (h : execClearLaneSkip s = .next t) : s.BandMoves t := by
  unfold execClearLaneSkip at h
  split at h <;> cases h
  · exact .refl
  · refine State.runCommand_moves fun i _ => ?_
    split
    · exact .complete (.then (.enterSyncing .refl i) (State.lookForDrainEnd_moves i _)) _ _ _
    · next k hk =>
      exact .complete (.then (.enterSyncing (State.skipBand_moves hk) i) (State.lookForDrainEnd_moves i _)) _ _ _

theorem execQueryStream_moves {s t : State} (h : execQueryStream s = .next t) : s.BandMoves t := by
  unfold execQueryStream at h
  split at h <;> cases h
  · exact .refl
  · refine State.runCommand_moves fun i _ => ?_
    split
    · refine .complete ?_ _ _ _
      exact .of_frame rfl rfl
    · exact .of_frame rfl rfl

theorem execUnknownCommand_moves {s t : State} (h : execUnknownCommand s = .next t) : s.BandMoves t := by
  unfold execUnknownCommand at h
  split at h <;> cases h
  · exact .refl
  · exact .complete .refl _ _ _

theorem execOpenBand_moves {s t : State} (h : execOpenBand s = .next t) : s.BandMoves t := by
  cases h
  refine State.handOver_moves fun h ht => ?_
  simp only
  split
  · exact State.failRecord_moves _ _ _ _
  · next hband =>
    split
    · exact State.failRecord_moves _ _ _ _
    · split
      · exact .refl
      · next k hk =>
        rw [not_not.1 hband]
        have opened := (State.BandMove.openNew h.stream k h.cfg.pages (Stream.emits_of_takesRecords ht)
          (State.lowestFree_some hk)).moves
        split
        · exact opened.then (State.beginOp_moves _ _ _ _ _)
        · exact opened.then (State.finishRecord_moves _ _ _ _ _)

theorem execFillRect_moves {s t : State} (h : execFillRect s = .next t) : s.BandMoves t := by
  cases h
  exact State.handOver_moves fun h _ => State.onOpen_moves fun k => State.beginOp_moves _ _ _ _ _

theorem execPlace_moves {s t : State} (h : execPlace s = .next t) : s.BandMoves t := by
  cases h
  exact State.handOver_moves fun h _ => State.onOpen_moves fun k => State.beginOp_moves _ _ _ _ _

theorem execCopyRect_moves {s t : State} (h : execCopyRect s = .next t) : s.BandMoves t := by
  cases h
  refine State.handOver_moves fun h _ => State.onOpen_moves fun k => ?_
  split
  · exact State.failRecord_moves _ _ _ _
  · exact State.beginOp_moves _ _ _ _ _

theorem execCloseBand_moves {s t : State} (h : execCloseBand s = .next t) : s.BandMoves t := by
  cases h
  refine State.handOver_moves fun h _ => State.onOpen_moves fun k => .then ?_ (State.finishRecord_moves _ _ _ _ _)
  exact State.BandMove.moves (.mapSlot k _ (fun _ => ⟨rfl, rfl, rfl⟩) fun _ _ hst => by cases hst)

theorem execDiscardBand_moves {s t : State} (h : execDiscardBand s = .next t) : s.BandMoves t := by
  cases h
  refine State.handOver_moves fun h _ => State.onOpen_moves fun k => .then ?_ (State.finishRecord_moves _ _ _ _ _)
  exact State.BandMove.moves (.discardSlot k)

theorem execMark_moves {s t : State} (h : execMark s = .next t) : s.BandMoves t := by
  cases h
  refine State.handOver_moves fun h _ => ?_
  simp only
  split
  · exact State.finishRecord_moves _ _ _ _ _
  · exact .then (.mapStream (.of_eq rfl rfl rfl rfl rfl)) (State.finishRecord_moves _ _ _ _ _)

theorem execUnknownRecordKind_moves {s t : State} (h : execUnknownRecordKind s = .next t) : s.BandMoves t := by
  unfold execUnknownRecordKind at h
  split at h <;> cases h
  · exact .refl
  · exact State.failRecord_moves _ _ _ _

theorem execRingFault_moves {s t : State} (h : execRingFault s = .next t) : s.BandMoves t := by
  unfold execRingFault at h
  split at h
  · cases h; exact .refl
  · split at h <;> cases h
    · exact State.ringFault_moves _ _ _
    all_goals exact .refl

theorem execRecordFetch_moves {s t : State} (h : execRecordFetch s = .next t) : s.BandMoves t := by
  unfold execRecordFetch at h
  split at h
  · cases h; exact .refl
  · split at h <;> cases h
    · exact .refl
    · next i _ _ r _ =>
      have latched : s.BandMoves (s.mapStream i fun st => { st with latch := .fetching r.head }) :=
        .mapStream (.of_eq rfl rfl rfl rfl rfl)
      exact latched.frame rfl rfl

theorem execAdminFetch_moves {s t : State} (h : execAdminFetch s = .next t) : s.BandMoves t := by
  unfold execAdminFetch at h
  split at h
  · split at h <;> cases h
    · exact .of_frame rfl rfl
    · exact .refl
  · cases h; exact .refl

theorem execReadLimitExpiry_moves {request : Nat} {s t : State} (h : execReadLimitExpiry request s = .next t) :
    s.BandMoves t := by
  unfold execReadLimitExpiry at h
  split at h <;> cases h
  · exact State.readEnds_moves _ _ _
  · exact .refl

theorem execRowWrite_moves {s t : State} (h : execRowWrite s = .next t) : s.BandMoves t := by
  unfold execRowWrite at h
  split at h <;> cases h
  · split
    · exact State.writeRow_moves _ _
    · exact .refl
  all_goals exact .refl

theorem execEntryAdmission_moves {s t : State} (h : execEntryAdmission s = .next t) : s.BandMoves t := by
  unfold execEntryAdmission at h
  split at h
  · split at h <;> cases h
    · exact .refl
    · next p _ =>
      refine (State.admitOffer_moves p s).then ?_
      cases p with
      | stream i => exact State.offerStream_moves i _
      | lane | raster | admin => exact .refl
  · cases h; exact .refl

theorem execCompletionEntryWrite_moves {s t : State} (h : execCompletionEntryWrite s = .next t) : s.BandMoves t := by
  unfold execCompletionEntryWrite at h
  split at h <;> cases h
  · refine .of_frame ?_ ?_ <;> split <;> simp
  · exact .refl

theorem execCoalesceTimerExpiry_moves {s t : State} (h : execCoalesceTimerExpiry s = .next t) : s.BandMoves t := by
  unfold execCoalesceTimerExpiry at h
  split at h <;> cases h
  · exact .refl
  · refine .of_frame ?_ ?_ <;> split <;> simp

theorem execDrainAutoClose_moves {i : StreamId} {s t : State} (h : execDrainAutoClose i s = .next t) :
    s.BandMoves t := by
  unfold execDrainAutoClose at h
  split at h <;> cases h
  · exact State.BandMove.moves (.autoClose i)
  · exact .refl

/-- Steps 4 and 5 of the abort: the slots of the ABORTING stream leave, and then its abort is past them (R49). -/
theorem State.abortBands_moves {i : StreamId} {s : State} (hst : (s.stream i).st = .aborting)
    (hat : (s.stream i).abortAt = some .lane) : s.BandMoves (s.abortBands i) := by
  have hfree : (s.freeAll i).stream i = s.stream i := State.stream_congr (by simp) i
  have held : (s.freeAll i).holdsSlot i = false := State.holdsSlot_false.2 fun k b hb => by
    simp only [State.freeAll_slot, Option.filter_eq_some_iff] at hb
    simpa using hb.2
  have freed : s.BandMoves (s.freeAll i) :=
    State.BandMove.moves (.freeAll i (by simp [Stream.emits, Stream.takesRecords, hst]))
  refine (freed.then (.renumber (.inr held) ?_ fun ha => ?_)).then (State.offerStream_moves i _)
  · simp [Stream.emits, Stream.takesRecords, hfree, hst]
  · exact Stream.abortOk_of_not_due (ha.not_due (.inr (by simp [hfree, hat])))

theorem State.abortStop_moves {i : StreamId} {s : State} (hst : (s.stream i).st = .aborting)
    (hat : (s.stream i).abortAt = some .marks) : s.BandMoves (s.abortStop i) := by
  refine State.BandMoves.then (.mapStream (.of_move rfl rfl id (fun _ => ?_) fun ha => ?_)) (State.offerStream_moves i _)
  · exact .inr (.inr (by simp [Stream.pastBands, hst, hat]))
  · exact Stream.abortOk_of_not_due (ha.not_due (.inr (by simp [hat])))

theorem State.abortEnd_moves {i : StreamId} {s : State} (hst : (s.stream i).st = .aborting)
    (hat : (s.stream i).abortAt = some .stop) : s.BandMoves (s.abortEnd i) := by
  refine State.BandMoves.then (.mapStream (.of_move rfl rfl id (fun _ => ?_) fun _ => ?_)) (State.offerStream_moves i _)
  · exact .inr (.inr (by simp [Stream.pastBands, hst, hat]))
  · exact fun _ _ _ => ⟨hst, rfl⟩

theorem execAbortStep_moves {i : StreamId} {s t : State} (h : execAbortStep i s = .next t) : s.BandMoves t := by
  unfold execAbortStep at h
  split at h
  · next hc =>
    have hst := hc.2
    split at h <;> cases h
    · next hat =>
      split
      · exact .refl
      · have hlane : (s.stopLane i).stream i = s.stream i := State.stream_congr (by simp) i
        refine State.BandMoves.then (t := s.stopLane i) (.of_frame (by simp) (by simp)) (.mapStream ?_)
        rw [hlane]
        refine .of_move rfl rfl id ?_ fun ha => Stream.abortOk_of_not_due (ha.not_due (.inr (by simp [hat])))
        simp [Stream.Vacant, Stream.pastBands, hst]
    · next hat =>
      split
      · exact State.abortBands_moves hst hat
      · exact .refl
    · next hat =>
      split
      · exact State.abortStop_moves hst hat
      · exact .refl
    · next hat =>
      split
      · exact State.abortEnd_moves hst hat
      · exact .refl
    all_goals exact .refl
  · cases h; exact .refl

theorem execSyncSend_moves {i : StreamId} {s t : State} (h : execSyncSend i s = .next t) : s.BandMoves t := by
  unfold execSyncSend at h
  split at h
  · cases h; exact .refl
  · split at h <;> cases h
    · exact .of_frame rfl rfl
    · exact .refl

/-- A band starts only in a slot at next-emit of the lane's stream (R112). -/
theorem State.startableSlot_some {s : State} {i : StreamId} {k : SlotId} (h : s.startableSlot i = some k) :
    ∃ b, s.slot k = some b ∧ b.stream = i ∧ b.band = (s.stream i).nextEmit := by
  simp only [State.startableSlot] at h
  split at h
  · obtain ⟨b, hb, hp⟩ := State.findSlot_some h
    simp only [Bool.and_eq_true, beq_iff_eq] at hp
    exact ⟨b, hb, hp.1⟩
  · cases h

theorem execBandStart_moves {i : StreamId} {s t : State} (h : execBandStart i s = .next t) : s.BandMoves t := by
  unfold execBandStart at h
  split at h <;> cases h
  · exact .refl
  · next k hk =>
    obtain ⟨b, hb, hi, hband⟩ := State.startableSlot_some hk
    unfold State.startBand
    split
    · have sent : s.BandMoves (s.mapSlot k fun b => { b with st := .sending }) :=
        State.BandMove.moves <| .mapSlot k _ (fun _ => ⟨rfl, rfl, rfl⟩) fun c hc _ => .inr <| by
          rw [hb, Option.some.injEq] at hc
          rw [← hc, hi, hband]
      exact sent.mapLane i _
    · exact .refl

theorem execBadFrame_moves {i : StreamId} {bytes : List Byte} {s t : State} (h : execBadFrame i bytes s = .next t) :
    s.BandMoves t := by
  unfold execBadFrame at h
  split at h <;> cases h
  · exact .of_frame (by simp) (by simp)
  · exact State.reply_moves fun o => State.acceptTaken_moves i o s
  · exact State.reply_moves fun o => .of_frame (by simp) (by simp)
  · exact State.reply_moves fun o => .of_frame (by simp) (by simp)
  · exact .of_frame (by simp) (by simp)

theorem execReplyTimerExpiry_moves {i : StreamId} {s t : State} (h : execReplyTimerExpiry i s = .next t) :
    s.BandMoves t := by
  unfold execReplyTimerExpiry at h
  split at h <;> cases h
  · exact .refl
  · split
    · exact .of_frame (by simp) (by simp)
    · exact .refl

theorem execWaitTimerExpiry_moves {i : StreamId} {s t : State} (h : execWaitTimerExpiry i s = .next t) :
    s.BandMoves t := by
  unfold execWaitTimerExpiry at h
  split at h <;> cases h
  · exact .refl
  · split
    · exact .of_frame rfl rfl
    · exact .refl

/-- The inversion of a row: whatever it is, it moves the bands by moves of `State.BandMove` alone. -/
theorem exec_moves (c : Instr) {s t : State} (h : exec c s = .next t) : s.BandMoves t := by
  cases c with
  | powerOn => cases h; exact State.BandMove.moves (.blank (.inr rfl) rfl rfl rfl)
  | fundamentalReset => cases h; exact s.functionReset_moves.frame rfl rfl
  | functionReset attach => cases h; exact s.writeControl_moves _
  | attach => cases h; exact s.writeControl_moves _
  | attachCancel => cases h; exact s.writeControl_moves _
  | detach => cases h; exact s.writeControl_moves _
  | detachEnd =>
    simp only [exec, execDetachEnd] at h
    split at h <;> cases h
    · exact State.BandMove.moves (.blank (.inl rfl) rfl rfl rfl)
    · exact .refl
  | notifyAdminTail index => cases h; exact s.notify_moves _ _
  | notifyStreamTail stream index => cases h; exact s.notify_moves _ _
  | notifyRelease index => cases h; exact s.notify_moves _ _
  | notifyUnusedQueue queue index => cases h; exact s.notify_moves _ _
  | eventCauseWrite value => cases h; exact .of_frame (by simp) (by simp)
  | eventMaskWrite value => cases h; exact .of_frame (by simp) (by simp)
  | registerWrite offset size value => cases h; exact s.writeRegister_moves _ _ _
  | configBusMasterEnable busMaster messages =>
    cases h; refine .of_frame ?_ ?_ <;> split <;> (try split) <;> simp
  | configBusMasterDisable busMaster messages => cases h; exact .of_frame rfl rfl
  | linkLoss => cases h; refine .of_frame ?_ ?_ <;> split <;> simp
  | linkUp => cases h; refine .of_frame ?_ ?_ <;> split <;> simp
  | readCompletion request offset data good => cases h; exact s.takeCompletion_moves _ _ _ _
  | readLimitExpiry request => exact execReadLimitExpiry_moves h
  | adminFetch => exact execAdminFetch_moves h
  | unknownCommand => exact execUnknownCommand_moves h
  | configureStream => exact execConfigureStream_moves h
  | startStream => exact execStartStream_moves h
  | stopStream => exact execStopStream_moves h
  | abortStream => exact execAbortStream_moves h
  | releaseStream => exact execReleaseStream_moves h
  | clearStreamResume => exact execClearStreamResume_moves h
  | clearStreamSkipBand => exact execClearStreamSkipBand_moves h
  | clearLaneResend => exact execClearLaneResend_moves h
  | clearLaneSkip => exact execClearLaneSkip_moves h
  | queryStream => exact execQueryStream_moves h
  | recordFetch => exact execRecordFetch_moves h
  | ringFault => exact execRingFault_moves h
  | unknownRecordKind => exact execUnknownRecordKind_moves h
  | openBand => exact execOpenBand_moves h
  | fillRect => exact execFillRect_moves h
  | place => exact execPlace_moves h
  | copyRect => exact execCopyRect_moves h
  | closeBand => exact execCloseBand_moves h
  | discardBand => exact execDiscardBand_moves h
  | mark => exact execMark_moves h
  | rowWrite => exact execRowWrite_moves h
  | entryAdmission => exact execEntryAdmission_moves h
  | completionEntryWrite => exact execCompletionEntryWrite_moves h
  | coalesceTimerExpiry => exact execCoalesceTimerExpiry_moves h
  | drainAutoClose stream => exact execDrainAutoClose_moves h
  | drainEnd stream => cases h; exact s.lookForDrainEnd_moves stream
  | abortStep stream => exact execAbortStep_moves h
  | syncSend lane => exact execSyncSend_moves h
  | bandStart lane => exact execBandStart_moves h
  | frameSent lane => cases h; exact .of_frame rfl rfl
  | accept lane seq => cases h; exact State.reply_moves fun o => s.acceptTaken_moves lane o
  | wait lane seq => cases h; exact State.reply_moves fun o => .of_frame (by simp) (by simp)
  | refuse lane seq reason => cases h; exact State.reply_moves fun o => .of_frame (by simp) (by simp)
  | credit lane grant => cases h; refine .of_frame ?_ ?_ <;> split <;> simp
  | badFrame lane bytes => exact execBadFrame_moves h
  | replyTimerExpiry lane => exact execReplyTimerExpiry_moves h
  | waitTimerExpiry lane => exact execWaitTimerExpiry_moves h
  | starveTimerExpiry lane => cases h; refine .of_frame ?_ ?_ <;> split <;> simp

/-- The inversion of a step (log 1): moves of the bands alone. -/
theorem step_moves {s t : State} (h : step s = .next t) : s.BandMoves t := by
  unfold step at h
  split at h
  · cases h; exact .refl
  · next c rest _ =>
    exact State.BandMoves.then (t := { s with pending := rest }) (.of_frame rfl rfl) (exec_moves c h)

/-! ## The laws that every step keeps -/

/-- Settles O2: every move of the bands keeps each page in exactly one place. -/
theorem stepsKeepThePagePool : Obligations.StepsKeepThePagePool :=
  fun _ _ h hstep => (step_moves hstep).keeps (fun _ _ m => m.keeps_poolLaw) h

/-- Settles O3: every move of the bands keeps band memory canonical and inside the 64 pages. -/
theorem stepsKeepBandMemoryCanonical : Obligations.StepsKeepBandMemoryCanonical :=
  fun _ _ h hstep => (step_moves hstep).keeps (fun _ _ m => m.keeps_memoryLaw) h

/-- Settles O5: every move of the bands keeps the laws of the numbering. -/
theorem stepsKeepTheBandLaws : Obligations.StepsKeepTheBandLaws :=
  fun _ _ h hstep => (step_moves hstep).keeps (fun _ _ m => m.keeps_bandLaws) h

end Sys2Proof.Machine
end

section
/-!
The part after power-on, after the resets and after the beginning of a detach (R3, R160, R164, R166, R167).
-/

namespace Sys2Proof.Machine

/-! ## Power-on and resets -/

@[simp] theorem State.reset_stream (i : StreamId) : State.reset.stream i = Stream.initial := by
  simp [State.reset, State.stream]

@[simp] theorem State.reset_lane (i : StreamId) : State.reset.lane i = Lane.initial := by
  simp [State.reset, State.lane]

theorem State.reset_live : State.reset.bands.live = [] := by
  simp [State.reset, Bands.live]

theorem State.reset_poolLaw : State.reset.PoolLaw := by
  unfold State.PoolLaw
  rw [State.reset_live]
  simp [State.reset]

theorem State.reset_queueLaw : State.reset.QueueLaw := by
  refine ⟨Nat.zero_le _, fun i => Nat.zero_le _, fun e he => ?_, fun e i he => ?_⟩
  · cases he
  · rcases he with he | he <;> cases he

theorem State.reset_quotaLaw : State.reset.QuotaLaw := by
  simp [State.QuotaLaw, State.quotaSum, Stream.initial]

/-- Settles O7: after power-on nothing is held, configured, queued or latched. -/
theorem lawsHoldAtReset : Obligations.LawsHoldAtReset := by
  refine ⟨State.reset_poolLaw, .of_mem_nil rfl, State.reset_queueLaw, .of_blank rfl rfl, ⟨?_, ?_, ?_⟩,
    State.reset_quotaLaw, ?_, ?_, ?_, ?_⟩
  · intro r hr; cases hr
  · intro c hc; cases hc
  · intro i r hr; simp [Stream.initial] at hr
  · intro i; simp [Lane.initial]
  · intro i c hc; simp [Stream.initial] at hc
  · intro i hi; simp [Stream.initial] at hi
  · intro bs n met h; cases h

/-- A CONTROL write with RESET 1 is a function reset, whatever its ATTACH bit (R158). -/
theorem State.writeControl_reset (attach : Bool) (s : State) :
    s.writeControl (if attach then 3#32 else 2#32) = s.functionReset := by
  cases attach <;> simp [State.writeControl]

/-- A CONTROL write of 0 is ATTACH 0 (R158). -/
theorem State.writeControl_zero (s : State) : s.writeControl 0#32 = s.attachZero := by
  simp [State.writeControl]

/-- Settles O16: each reset's next state, field by field. -/
theorem resetsPutEveryBlockAtItsResetValues : Obligations.ResetsPutEveryBlockAtItsResetValues := by
  intro s attach r
  refine ⟨?_, rfl, _, rfl, rfl, fun a => rfl⟩
  show Host.Outcome.next (s.writeControl (if attach then 3#32 else 2#32)) = _
  rw [State.writeControl_reset]
  rfl

/-! ## Detach -/

/-- In ATTACHED and FATAL, DETACH begins the detach (R164). -/
theorem execDetach_begins {s : State} (h : s.port.part = .attached ∨ s.port.part = .fatal) :
    exec .detach s = .next s.detachBegins := by
  show Host.Outcome.next (s.writeControl 0#32) = _
  rw [State.writeControl_zero]
  rcases h with h | h <;> simp [State.attachZero, h]

theorem State.detachBegins_stream (s : State) (i : StreamId) : s.detachBegins.stream i = (s.stream i).abandoned := by
  simp [State.detachBegins, State.stream]

theorem State.detachBegins_lane (s : State) (i : StreamId) :
    s.detachBegins.lane i = (s.lane i).detaching ((s.stream i).st != .unconfigured) := by
  simp [State.detachBegins, State.lane, State.stream, Vector.get_eq_getElem]

@[simp] theorem Lane.goOffline_latch (l : Lane) : l.goOffline.latch = l.latch := rfl
@[simp] theorem Lane.goOffline_state (l : Lane) : l.goOffline.state = .offline := rfl

/-- Settling keeps the event in the latch (R129, R130). -/
@[simp] theorem Lane.settle_latch (l : Lane) : l.settle.latch = l.latch := by
  unfold Lane.settle; split <;> rfl

theorem Lane.detaching_latch (configured : Bool) (l : Lane) : (l.detaching configured).latch = none := by
  unfold Lane.detaching
  simp only
  split
  · simp
  · rfl

/-- An abandoned stream offers nothing (R26, R32, R164). -/
theorem Stream.abandoned_offer (i : StreamId) (x : Stream) : x.abandoned.offer i = none := by
  simp [Stream.offer, Stream.abandoned]

/-- No producer has an offer once a detach has begun (R32, R93, R138, R164). -/
theorem State.detachBegins_offer (s : State) (p : Producer) : s.detachBegins.offer p = none := by
  cases p with
  | lane i => simp [State.offer, State.detachBegins_lane, Lane.detaching_latch]
  | stream i => simp [State.offer, State.detachBegins_stream, Stream.abandoned_offer]
  | raster => cases h : s.raster <;> simp [State.offer, State.detachBegins, RasterUnit.detaching, RasterUnit.offer, h]
  | admin => cases h : s.admin <;> simp [State.offer, State.detachBegins, AdminUnit.detaching, AdminUnit.offer, h]

theorem State.detachBegins_offers (s : State) : s.detachBegins.offers = [] := by
  refine List.eq_nil_iff_forall_not_mem.2 fun p hp => ?_
  rw [State.mem_offers, s.detachBegins_offer p] at hp
  cases hp

/-- An abandoned stream takes no records (log 13). -/
theorem Stream.abandoned_takesRecords (x : Stream) : x.abandoned.takesRecords = false := by
  cases h : x.st <;> simp [Stream.abandoned, Stream.emits, Stream.takesRecords, h]

/-- At a detach the lane of a configured stream that has a band frame outstanding takes a stop order (R164). -/
theorem Lane.detaching_busy {l : Lane} (h : l.state = .sending ∨ l.state = .cancelling) :
    l.detaching true = { l with latch := none, beforeStop := false, stopPending := true } := by
  rcases h with h | h <;> simp [Lane.detaching, Lane.settle, h]

/-- At a detach the lane of a configured stream without a band frame outstanding goes OFFLINE (R164). -/
theorem Lane.detaching_idle {l : Lane} (h1 : l.state ≠ .sending) (h2 : l.state ≠ .cancelling) :
    (l.detaching true).state = .offline := by
  by_cases h : l.state = .offline
  · simp [Lane.detaching, h]
  · simp [Lane.detaching, Lane.settle, h, h1, h2]

/-- Settles O19: each block's part in the beginning of a detach. -/
theorem detachSilencesThePart : Obligations.DetachSilencesThePart := by
  intro s h
  refine ⟨s.detachBegins, execDetach_begins h, rfl, rfl, s.detachBegins_offers, rfl, rfl, rfl, ?_, fun i => ?_,
    fun i hi => ?_⟩
  · intro c hc
    simp only [State.detachBegins, RingUnit.detaching, Option.map_eq_some_iff] at hc
    obtain ⟨c', _, rfl⟩ := hc
    exact ⟨rfl, rfl⟩
  · rw [State.detachBegins_stream]
    exact ⟨rfl, rfl, rfl, rfl, Stream.abandoned_takesRecords _⟩
  · rw [State.detachBegins_lane, bne_iff_ne.2 hi]
    exact ⟨Lane.detaching_busy, Lane.detaching_idle⟩

end Sys2Proof.Machine
end

section
/-!
Admin commands in the words of the statements: a taken command runs its effect, its completion is `State.answered` (R29 to R31).
-/

namespace Sys2Proof.Machine

/-! ## Taken commands -/

/-- The command that the admin unit has taken is the one its row finds (R29, R143). -/
theorem State.HasCommand.commandFor {s : State} {bs : List Byte} {n : Nat} {r : Ring} (h : s.HasCommand bs n r)
    {row : List Byte → Bool} (hrow : row bs = true) : s.commandFor row = some { bytes := bs, index := n, past := r } := by
  obtain ⟨hpart, g, met, hadmin, hring, rfl⟩ := h
  simp [State.commandFor, hadmin, hring, hpart, hrow, Ring.passed, Ring.advance]

/-- The completion of a command, as the statements say it (R29, R31). -/
theorem State.complete_eq_answered (bs : List Byte) (n : Nat) (r : Ring) (st : Status) (extra : BitVec 32) (s : State) :
    s.complete { bytes := bs, index := n, past := r } st extra = s.answered bs n r st extra := rfl

/-- A command that passes the checks of R30 has its effect on the stream it names. -/
theorem State.runCommand_effect {s : State} {i : StreamId} {a : AdminCmd} {c : Command} {taken : Stream → Lane → Bool}
    {fieldsOk : Bool} {effect : StreamId → State → State} (hi : (byteAt a.bytes 1).toNat = i.val)
    (ht : taken (s.stream i) (s.lane i) = true) (hf : (commandReservedOk c a.bytes && fieldsOk) = true) :
    s.runCommand a c taken fieldsOk effect = effect i s := by
  have hlt : recStream a.bytes < 4 := by rw [recStream, hi]; exact i.isLt
  have e : (⟨recStream a.bytes, hlt⟩ : StreamId) = i := Fin.ext hi
  simp only [State.runCommand, hlt, dite_true, e, ht, hf]
  rfl

/-! ## Fields of a CONFIGURE_STREAM -/

theorem zeroBytes_iff {bs : List Byte} {lo n : Nat} :
    zeroBytes bs lo n = true ↔ ∀ k, lo ≤ k → k < lo + n → byteAt bs k = 0#8 := by
  simp only [zeroBytes, List.all_eq_true, List.mem_range, beq_iff_eq]
  refine ⟨fun h k hl hu => ?_, fun h k hk => h (lo + k) (by omega) (by omega)⟩
  have := h (k - lo) (by omega)
  rwa [Nat.add_sub_cancel' hl] at this

/-- The ring sizes are the powers of two from 16 to 4096 (R33). -/
theorem ringSizeOk_iff {n : Nat} : ringSizeOk n = true ↔ ∃ e, 4 ≤ e ∧ e ≤ 12 ∧ n = 2 ^ e := by
  constructor
  · simp only [ringSizeOk, Bool.or_eq_true, beq_iff_eq, or_assoc]
    rintro (rfl | rfl | rfl | rfl | rfl | rfl | rfl | rfl | rfl)
    exacts [⟨4, by decide⟩, ⟨5, by decide⟩, ⟨6, by decide⟩, ⟨7, by decide⟩, ⟨8, by decide⟩, ⟨9, by decide⟩,
      ⟨10, by decide⟩, ⟨11, by decide⟩, ⟨12, by decide⟩]
  · rintro ⟨e, h4, h12, rfl⟩
    interval_cases e <;> rfl

/-- The reserved bytes of a CONFIGURE_STREAM, all together (9.3). -/
theorem configReserved_iff {bs : List Byte} : commandReservedOk .configure bs = true ↔
    ∀ k, (2 ≤ k ∧ k < 4) ∨ k = 25 ∨ k = 33 ∨ (36 ≤ k ∧ k < 64) → byteAt bs k = 0#8 := by
  simp only [commandReservedOk, Bool.and_eq_true, zeroBytes_iff]
  constructor
  · rintro ⟨h2, ⟨h25, h33⟩, h36⟩ k (hk | hk | hk | hk)
    · exact h2 k hk.1 hk.2
    · exact h25 k (by omega) (by omega)
    · exact h33 k (by omega) (by omega)
    · exact h36 k hk.1 hk.2
  · intro h
    exact ⟨fun k _ _ => h k (by omega), ⟨fun k _ _ => h k (by omega), fun k _ _ => h k (by omega)⟩,
      fun k _ _ => h k (by omega)⟩

/-- The field checks of a CONFIGURE_STREAM are its reserved bytes and R33's ranges. -/
theorem fieldsGood_configure {bs : List Byte} (h : byteAt bs 0 = 0x10#8) :
    fieldsGood bs = (commandReservedOk .configure bs && configInRange (configRing bs) (configOf bs)) := by
  simp [fieldsGood, commandReservedOk, h, Bool.and_assoc]

/-- R33's table over the bytes of the record. -/
theorem configInRange_iff {bs : List Byte} : configInRange (configRing bs) (configOf bs) = true ↔
    (le64 bs 8).toNat % 64 = 0 ∧ (∃ e, 4 ≤ e ∧ e ≤ 12 ∧ (le16 bs 16).toNat = 2 ^ e) ∧
    (32 ≤ (le16 bs 18).toNat ∧ (le16 bs 18).toNat ≤ 16384 ∧ (le16 bs 18).toNat % 32 = 0) ∧
    (1 ≤ (le16 bs 20).toNat ∧ (le16 bs 20).toNat ≤ 256) ∧
    ((byteAt bs 22).toNat = 1 ∨ (byteAt bs 22).toNat = 2) ∧
    (1 ≤ (byteAt bs 23).toNat ∧ (byteAt bs 23).toNat ≤ 64) ∧
    (1 ≤ (byteAt bs 24).toNat ∧ (byteAt bs 24).toNat ≤ 4) ∧
    ((le16 bs 26).toNat = 256 ∨ (le16 bs 26).toNat = 512 ∨ (le16 bs 26).toNat = 1024) ∧
    (2 ≤ (le16 bs 28).toNat ∧ (le16 bs 28).toNat ≤ 500) ∧
    (1 ≤ (byteAt bs 30).toNat ∧ (byteAt bs 30).toNat ≤ 15) ∧
    1 ≤ (byteAt bs 31).toNat ∧ 1 ≤ (byteAt bs 32).toNat ∧ (le16 bs 34).toNat ≤ 10000 := by
  have h31 : (byteAt bs 31).toNat ≤ 255 := Nat.le_of_lt_succ (byteAt bs 31).isLt
  have h32 : (byteAt bs 32).toNat ≤ 255 := Nat.le_of_lt_succ (byteAt bs 32).isLt
  simp only [configInRange, Bool.and_eq_true, Bool.or_eq_true, decide_eq_true_eq, beq_iff_eq, ringSizeOk_iff, aligned64]
  simp only [configRing, configOf, h31, h32, and_true, and_assoc, or_assoc]

/-! ## CONFIGURE_STREAM -/

/-- The quotas of the other streams are all quotas but the stream's own (R33). -/
theorem State.otherQuotas_eq (s : State) (i : StreamId) : s.otherQuotas i = (s.setStream i Stream.initial).quotaSum := by
  simp only [State.otherQuotas, State.quotaSum, State.stream_setStream]
  fin_cases i <;> simp [List.finRange_succ, Stream.initial]

/-- Settles O34: the field checks as R33's table, and the quota checks in their order. -/
theorem configureStreamMakesTheStreamReady : Obligations.ConfigureStreamMakesTheStreamReady := by
  refine ⟨fun bs h => ?_, ?_⟩
  · rw [fieldsGood_configure h, Bool.and_eq_true, configReserved_iff, configInRange_iff]
  · intro s i bs n r h c pages others
    obtain ⟨hcmd, hkind, hi, hstate, hfields⟩ := h
    rw [fieldsGood_configure hkind] at hfields
    have hrow : (recCommand bs == some .configure) = true := by simp [recCommand, hkind, Command.ofCode]
    have run : exec .configureStream s = .next
        (if c.quota < c.window * pages then s.answered bs n r .quotaSmall 0#32
         else if 64 < others + c.quota then s.answered bs n r .poolOvercommit 0#32
         else (s.mapStream i (Stream.configured (configRing bs) c)).answered bs n r .ok 0#32) := by
      simp only [exec, execConfigureStream, hcmd.commandFor (row := fun bs => recCommand bs == some .configure) hrow]
      rw [State.runCommand_effect (i := i) hi (by exact hstate) (by exact hfields)]
      simp only [State.complete_eq_answered, State.otherQuotas_eq]
      rfl
    refine ⟨fun hq => ?_, fun hq ho => ?_, fun hq ho => ?_⟩
    · rw [run, if_pos hq]
    · rw [run, if_neg (by omega), if_pos ho]
    · rw [run, if_neg (by omega), if_neg (by omega)]
      rfl

/-! ## CLEAR_LANE -/

/-- The marks that next-emit's advance makes due, and the ones that stay (R25). -/
theorem makeDue_split (ne : Band) (marks : List Mark) : ∃ passed others,
    marks = passed ++ others ∧
    makeDue ne marks = passed.map (fun m => { m with st := if m.st = .boundary then .dueOk else m.st }) ++ others ∧
    (∀ m ∈ others, m.boundary ≠ ne - 1) ∧ ∀ m, passed.getLast? = some m → m.boundary = ne - 1 := by
  induction marks with
  | nil => exact ⟨[], [], rfl, rfl, by simp, by simp⟩
  | cons m ms ih =>
    by_cases h : (m :: ms).any (fun n => n.boundary == ne - 1)
    · obtain ⟨passed, others, hms, hdue, hothers, hlast⟩ := ih
      refine ⟨m :: passed, others, by rw [hms]; rfl, by rw [makeDue, if_pos h, hdue]; rfl, hothers, fun x hx => ?_⟩
      cases passed with
      | cons p ps => exact hlast x (by simpa [List.getLast?_cons] using hx)
      | nil =>
        simp only [List.getLast?_singleton, Option.some.injEq] at hx
        rw [List.nil_append] at hms
        subst hx hms
        simp only [List.any_cons, Bool.or_eq_true, beq_iff_eq, List.any_eq_true] at h
        exact h.resolve_right fun ⟨o, ho, e⟩ => hothers o ho e
    · exact ⟨[], m :: ms, rfl, by rw [makeDue, if_neg h]; rfl, by simpa using h, by simp⟩

/-- The mark boundaries at distance 65535 are those just below next-emit (R25). -/
theorem bandDist_eq_last {a ne : Band} : bandDist a ne = 65535 ↔ a = ne - 1 := by
  simp only [bandDist]
  constructor <;> intro h <;> bv_omega

/-- The lane entering SYNCING, with its configuration at hand (R106). -/
theorem State.enterSyncing_of_cfg {s : State} {i : StreamId} {c : StreamCfg} (h : (s.stream i).cfg = some c) :
    s.enterSyncing i = s.setLane i { (s.lane i).quiet with
      state := .syncing, params := some (paramsOf c), resendCount := 0, waitCount := 0, progress := none } := by
  rw [State.enterSyncing, State.mapLane_eq_setLane, h]
  rfl

/-- An admission keeps a stream's configuration. -/
theorem Stream.admitted_cfg (x : Stream) : x.admitted.cfg = x.cfg := by
  rcases x.admitted_cases with e | ⟨_, e⟩ | e | ⟨_, _, _, e⟩ <;> rw [e]

/-- The offers of a stream keep every stream's configuration (R150). -/
theorem State.offerStream_cfg (i j : StreamId) (s : State) : ((s.offerStream i).stream j).cfg = (s.stream j).cfg :=
  State.offerStream_keeps (fun t => (t.stream j).cfg = (s.stream j).cfg) i (fun t ht _ => by
    rw [State.admit_stream]
    split
    · rw [Stream.admitted_cfg, ht]
    · exact ht) s rfl

/-- The SENDING slot leaves, field by field (R14, R15). -/
theorem State.passBand_eq {s : State} {i : StreamId} {k : SlotId} {b : BandSlot} (h : s.slot k = some b) :
    s.passBand i k =
      { s.setStream i
          { s.stream i with
            nextEmit := (s.stream i).nextEmit + 1, marks := makeDue ((s.stream i).nextEmit + 1) (s.stream i).marks } with
        bands := { s.bands with free := s.bands.free ++ b.pages, slots := putAt s.bands.slots k none } } := by
  simp only [State.passBand, State.freeSlot, h]
  rfl

/-- The checks of a CLEAR_LANE are met by a command that is taken (R51). -/
theorem fieldsGood_clearLane {bs : List Byte} (h : byteAt bs 0 = 0x16#8) (hf : fieldsGood bs = true) :
    commandReservedOk .clearLane bs = true := by
  have hf : zeroBytes bs 2 2 = true ∧ zeroBytes bs 9 55 = true ∧ (byteAt bs 8).toNat ≤ 1 := by
    simpa [fieldsGood, h] using hf
  simp [commandReservedOk, hf]

/-- A CLEAR_LANE with action RESEND, taken (R127). -/
theorem execClearLaneResend_taken {s : State} {i : StreamId} {bs : List Byte} {n : Nat} {r : Ring}
    (h : s.Taken 0x16#8 i bs n r) (ha : byteAt bs 8 = 0#8) : exec .clearLaneResend s =
      .next (((s.enterSyncing i).lookForDrainEnd i).answered bs n r .ok Config.noValue) := by
  obtain ⟨hcmd, hkind, hi, hstate, hfields⟩ := h
  have hrow : (recCommand bs == some .clearLane && recAction bs != 1) = true := by
    simp [recCommand, hkind, Command.ofCode, recAction, ha]
  simp only [exec, execClearLaneResend,
    hcmd.commandFor (row := fun bs => recCommand bs == some .clearLane && recAction bs != 1) hrow]
  rw [State.runCommand_effect (i := i) hi (by exact hstate) (by simp [fieldsGood_clearLane hkind hfields, recAction, ha])]
  rfl

/-- A CLEAR_LANE with action SKIP, taken (R128). -/
theorem execClearLaneSkip_taken {s : State} {i : StreamId} {bs : List Byte} {n : Nat} {r : Ring}
    (h : s.Taken 0x16#8 i bs n r) (ha : byteAt bs 8 = 1#8) : exec .clearLaneSkip s =
      .next (match s.sendingSlot i with
        | none => ((s.enterSyncing i).lookForDrainEnd i).answered bs n r .ok Config.noValue
        | some k => (((s.skipBand i k).enterSyncing i).lookForDrainEnd i).answered bs n r .ok
            (bandExtra ((s.slot k).map BandSlot.band))) := by
  obtain ⟨hcmd, hkind, hi, hstate, hfields⟩ := h
  have hrow : (recCommand bs == some .clearLane && recAction bs == 1) = true := by
    simp [recCommand, hkind, Command.ofCode, recAction, ha]
  simp only [exec, execClearLaneSkip,
    hcmd.commandFor (row := fun bs => recCommand bs == some .clearLane && recAction bs == 1) hrow]
  rw [State.runCommand_effect (i := i) hi (by exact hstate) (by simp [fieldsGood_clearLane hkind hfields])]
  rfl

/-- Settles O40: the marks that become due, and both actions of CLEAR_LANE. -/
theorem clearLaneResynchronises : Obligations.ClearLaneResynchronises := by
  refine ⟨fun ne marks => ?_, ?_⟩
  · obtain ⟨passed, others, hms, hdue, hothers, hlast⟩ := makeDue_split ne marks
    refine ⟨passed, others, hms, hdue, fun m hm => ?_, fun m hm => ?_⟩
    · rw [Ne, bandDist_eq_last]; exact hothers m hm
    · rw [bandDist_eq_last]; exact hlast m hm
  · intro s i bs n r c h hc resync again
    have hagain : s.enterSyncing i = again := State.enterSyncing_of_cfg hc
    refine ⟨fun ha => ?_, fun ha hk => ?_, ?_⟩
    · rw [execClearLaneResend_taken h ha, hagain]
      rfl
    · rw [execClearLaneSkip_taken h ha, hk, hagain]
      rfl
    · intro k b ha hk hb left
      have hleft : s.skipBand i k = left := by rw [State.skipBand, State.passBand_eq hb]
      have hlane : left.lane i = s.lane i := State.lane_congr (by simp [left]; rfl) i
      have hcfg : (left.stream i).cfg = some c := by
        rw [State.offerStream_cfg]
        exact (by simp [State.stream, State.setStream] : _ = (s.stream i).cfg).trans hc
      rw [execClearLaneSkip_taken h ha, hk]
      simp only [hb, hleft, State.enterSyncing_of_cfg hcfg, hlane]
      rfl

end Sys2Proof.Machine
end

section
/-!
Hand-overs in the words of the statements: the chosen record, its consumption, its entry (R63, R71, R73), and the rows of the
band table (R9, R10, R12, R24).
-/

namespace Sys2Proof.Machine

/-! ## The slot a lookup finds -/

/-- A lookup of the band table finds the lowest slot with the property (R9). -/
theorem find_allSlots_eq_some {p : SlotId → Bool} {k : SlotId} :
    allSlots.find? p = some k ↔ p k = true ∧ ∀ j, j < k → p j = false := by
  have sorted : allSlots.Pairwise (· < ·) := List.pairwise_lt_finRange 64
  rw [List.find?_eq_some_iff_append]
  constructor
  · rintro ⟨hk, l, m, hl, hbefore⟩
    refine ⟨hk, fun j hj => ?_⟩
    have hj' : j ∈ l ++ k :: m := hl ▸ List.mem_finRange j
    rw [hl] at sorted
    have hafter := (List.pairwise_cons.1 (List.pairwise_append.1 sorted).2.1).1
    rcases List.mem_append.1 hj' with hj' | hj'
    · simpa using hbefore j hj'
    · rcases List.mem_cons.1 hj' with rfl | hj'
      · exact absurd hj (Fin.lt_irrefl _)
      · exact absurd (hafter j hj') (Fin.lt_asymm hj)
  · rintro ⟨hk, hmin⟩
    obtain ⟨l, m, hl⟩ := List.append_of_mem (List.mem_finRange k)
    refine ⟨hk, l, m, hl, fun j hj => ?_⟩
    rw [show allSlots = l ++ k :: m from hl] at sorted
    simpa using hmin j ((List.pairwise_append.1 sorted).2.2 j hj k List.mem_cons_self)

/-- What a lookup finds, as a property of the slots below (R8, R9). -/
theorem State.findSlot_eq_some {s : State} {p : BandSlot → Bool} {k : SlotId} :
    s.findSlot p = some k ↔
      (∃ b, s.slot k = some b ∧ p b = true) ∧ ∀ j, j < k → ¬∃ b, s.slot j = some b ∧ p b = true := by
  have hp : ∀ j, (s.slot j).any p = true ↔ ∃ b, s.slot j = some b ∧ p b = true := fun j => by
    rw [Option.any_eq_true]
  rw [State.findSlot, find_allSlots_eq_some, hp]
  simp only [← hp, Bool.not_eq_true]

/-- The lowest FREE slot (R9). -/
theorem State.lowestFree_eq_some {s : State} {k : SlotId} (hk : s.slot k = none) (hmin : ∀ j, j < k → s.slot j ≠ none) :
    s.lowestFree = some k :=
  find_allSlots_eq_some.2 ⟨by simp [hk], fun j hj => by simpa [Option.isSome_iff_ne_none] using hmin j hj⟩

/-! ## The chosen record -/

/-- A chosen record as the hand-over takes it (R63, R73). -/
def handOf (i : StreamId) (n : Nat) (bs : List Byte) (v : Verdict) (c : StreamCfg) (r : Ring) : Hand :=
  { stream := i, cfg := c, index := n, bytes := bs, verdict := v, head := (r.head + 1) % r.size }

theorem State.Chosen.handFor {s : State} {i : StreamId} {n : Nat} {bs : List Byte} {v : Verdict} {c : StreamCfg} {r : Ring}
    (h : s.Chosen i n bs v c r) {row : Verdict → List Byte → Bool} (hrow : row v bs = true) :
    s.handFor row = some (handOf i n bs v c r) := by
  simp [State.handFor, h.choice, h.latch, h.cfg, h.ring, hrow, handOf, Ring.advance]

/-- A good record that does not name the skip band has its kind's effect (R65). -/
theorem State.Good.handOver {s : State} {i : StreamId} {n : Nat} {k : RecKind} {bs : List Byte} {c : StreamCfg} {r : Ring}
    (h : s.Good i n k bs c r) (effect : Hand → State → State) :
    s.handOver k effect = effect (handOf i n bs .good c r) s := by
  have hand := h.toChosen.handFor (row := fun v bs => v != .badKind && RecKind.ofCode (recCode bs) == some k)
    (by simp [recCode, h.kind])
  unfold State.handOver
  simp only [hand]
  rw [if_neg (by simp [handOf]), if_neg (by simp [handOf, h.noSkip])]

/-- The consumption of the record at the ring's head (R63, R71). -/
theorem State.consumeRecord_eq_handed {s : State} {i : StreamId} {r : Ring} (h : (s.stream i).ring = some r) :
    s.consumeRecord i = s.handed i r (s.stream i) := by
  simp [State.consumeRecord, State.handed, State.mapStream_eq_setStream, h, Ring.advance, Ring.consumed, Intake.turn,
    State.setStream]

/-- A stream's own change before its record is consumed is part of the stream consumed. -/
theorem State.handed_mapStream (i : StreamId) (r : Ring) (x : Stream) (f : Stream → Stream) (s : State) :
    (s.mapStream i f).handed i r x = s.handed i r x := by
  simp [State.handed, State.setStream, State.mapStream]

/-- A record that ends with its entry owed, or without (R70, R71, R73). -/
theorem State.finishRecord_eq {s : State} {i : StreamId} {n : Nat} {bs : List Byte} {v : Verdict} {c : StreamCfg} {r : Ring}
    (hr : (s.stream i).ring = some r) (owed : Bool) (st : Status) (extra : BitVec 32) :
    s.finishRecord (handOf i n bs v c r) owed st extra =
      if owed then (s.handed i r (s.stream i)).holding i (handedEntry i n bs r st extra) else s.handed i r (s.stream i) := by
  have e : s.consumeRecord (handOf i n bs v c r).stream = s.handed i r (s.stream i) := State.consumeRecord_eq_handed hr
  simp only [State.finishRecord, e]
  rfl

/-- A record that begins its op (R71, R76). -/
theorem State.beginOp_eq {s : State} {i : StreamId} {n : Nat} {bs : List Byte} {v : Verdict} {c : StreamCfg} {r : Ring}
    (hr : (s.stream i).ring = some r) (kind : OpKind) (slot : SlotId) (area : Area) :
    s.beginOp (handOf i n bs v c r) kind slot area =
      (s.handed i r (s.stream i)).opGoesOn (handedOp i n bs c r kind slot area) :=
  congrArg (State.opGoesOn _) (State.consumeRecord_eq_handed hr)

/-! ## OPEN_BAND -/

/-- The state after a new band is opened and its record consumed (R5, R8, R9, R71). -/
def State.openedBand (i : StreamId) (k : SlotId) (band : Band) (pages : Nat) (r : Ring) (s : State) : State :=
  { s.handed i r { s.stream i with nextOpen := (s.stream i).nextOpen + 1 } with
    bands := { s.bands with
      free := s.bands.free.drop pages
      slots := putAt s.bands.slots k
        (some { st := .opened, stream := i, band := band, pages := s.bands.free.take pages, blank := false
                damaged := false, autoClosed := false, notify := false, tag := none }) } }

theorem State.openNew_stream_same (i : StreamId) (k : SlotId) (band : Band) (pages : Nat) (s : State) :
    (s.openNew i k band pages).stream i = { s.stream i with nextOpen := (s.stream i).nextOpen + 1 } := by
  rw [State.openNew_stream, if_pos rfl]

theorem State.handed_openNew {s : State} (i : StreamId) (k : SlotId) (band : Band) (pages : Nat) (r : Ring) :
    (s.openNew i k band pages).handed i r ((s.openNew i k band pages).stream i) = s.openedBand i k band pages r := by
  rw [State.openNew_stream_same, State.openNew, State.handed_mapStream]
  rfl

/-- A good OPEN_BAND that passes its checks (R9, R54, R70). -/
theorem execOpenBand_opens {s : State} {i : StreamId} {n : Nat} {bs : List Byte} {c : StreamCfg} {r : Ring} {k : SlotId}
    (h : s.Good i n .openBand bs c r) (hband : le16 bs 2 = (s.stream i).nextOpen) (hwindow : s.openCount i < c.window)
    (hk : s.lowestFree = some k) :
    exec .openBand s = .next
      (match recFill bs with
      | some v => (s.openNew i k (le16 bs 2) c.pages).beginOp (handOf i n bs .good c r) (.initialFill v) k
          (wholeArea c.width c.height)
      | none => (s.openNew i k (le16 bs 2) c.pages).finishRecord (handOf i n bs .good c r) (recNotify bs) .ok
          ((le16 bs 2).setWidth 32)) := by
  simp only [exec, execOpenBand, h.handOver]
  rw [if_neg (by simpa [handOf, recBand] using hband), if_neg (by simpa [handOf] using hwindow), hk]
  rfl

/-- The op of a fill of a whole band that has dots awaits its first row write (R78, R79). -/
theorem State.opGoesOn_wholeFill {s : State} {op : Op} {v : BitVec 2} {w h : Nat} (hkind : op.kind = .initialFill v)
    (harea : op.area = wholeArea w h) (hrows : op.rowsDone = 0) (hw : 1 ≤ w) (hh : 1 ≤ h) :
    s.opGoesOn op = { s with raster := .executing op } := by
  have hgo : (op.area.isEmpty || decide (op.area.rows ≤ op.rowsDone)) = false := by
    simp [harea, hrows, wholeArea, Area.isEmpty, Area.rows]
    omega
  simp [State.opGoesOn, hgo, hkind]

/-- Settles O45: the slot and pages, then the record's end or its fill. -/
theorem openBandTakesSlotAndPages : Obligations.OpenBandTakesSlotAndPages := by
  intro s i n bs c r k h hband hwindow hk hmin pages t
  have opens := execOpenBand_opens h hband hwindow (State.lowestFree_eq_some hk hmin)
  have ring : ((s.openNew i k (le16 bs 2) c.pages).stream i).ring = some r := by
    rw [State.openNew_stream_same]; exact h.ring
  have opened : (s.openNew i k (le16 bs 2) c.pages).handed i r ((s.openNew i k (le16 bs 2) c.pages).stream i) = t :=
    State.handed_openNew i k _ _ r
  refine ⟨fun hf hn => ?_, fun hf hn => ?_, ?_⟩
  · simp only [opens, recFill, if_neg hf, State.finishRecord_eq ring, opened, recNotify, hn]
    rfl
  · simp only [opens, recFill, if_neg hf, State.finishRecord_eq ring, opened, recNotify, hn]
    rfl
  · intro hf hw hh op
    simp only [opens, recFill, if_pos hf, State.beginOp_eq ring, opened]
    rw [State.opGoesOn_wholeFill rfl rfl rfl hw hh]
    rfl

/-! ## CLOSE_BAND and DISCARD_BAND -/

theorem State.openSlot_eq_some {s : State} {i : StreamId} {m : Band} {k : SlotId} : s.openSlot i m = some k ↔
    (∃ b, s.slot k = some b ∧ b.stream = i ∧ b.band = m ∧ b.st = .opened) ∧
      ∀ j, j < k → ¬∃ b, s.slot j = some b ∧ b.stream = i ∧ b.band = m ∧ b.st = .opened := by
  simp only [State.openSlot, State.findSlot_eq_some, Bool.and_eq_true, beq_iff_eq, and_assoc]

theorem State.sendingSlot_eq_some {s : State} {i : StreamId} {k : SlotId} : s.sendingSlot i = some k ↔
    (∃ b, s.slot k = some b ∧ b.stream = i ∧ b.st = .sending) ∧
      ∀ j, j < k → ¬∃ b, s.slot j = some b ∧ b.stream = i ∧ b.st = .sending := by
  simp only [State.sendingSlot, State.findSlot_eq_some, Bool.and_eq_true, beq_iff_eq]

/-- A band that is OPEN stands in one slot (R9). -/
theorem State.openSlot_iff_of_unique {s : State} (h : s.UniqueLaw) {i : StreamId} {m : Band} {k : SlotId} :
    s.openSlot i m = some k ↔ ∃ b, s.slot k = some b ∧ b.stream = i ∧ b.band = m ∧ b.st = .opened := by
  rw [State.openSlot_eq_some, and_iff_left_of_imp]
  rintro ⟨b, hb, hi, hm, _⟩ j hj ⟨b', hb', hi', hm', _⟩
  exact (Fin.ne_of_lt hj) (h j k b' b hb' hb (hi'.trans hi.symm) (hm'.trans hm.symm))

/-- A stream's SENDING slot is its only one, since it stands at next-emit (R9, R13). -/
theorem State.sendingSlot_iff_of_laws {s : State} (hu : s.UniqueLaw) (hs : s.SendingLaw) {i : StreamId} {k : SlotId} :
    s.sendingSlot i = some k ↔ ∃ b, s.slot k = some b ∧ b.stream = i ∧ b.st = .sending := by
  rw [State.sendingSlot_eq_some, and_iff_left_of_imp]
  rintro ⟨b, hb, hi, hst⟩ j hj ⟨b', hb', hi', hst'⟩
  refine (Fin.ne_of_lt hj) (hu j k b' b hb' hb (hi'.trans hi.symm) ?_)
  rw [hs j b' hb' hst', hs k b hb hst, hi, hi']

/-- The OPEN slot of a good record's band passes the checks of R69. -/
theorem State.onOpen_of_openSlot {s : State} {i : StreamId} {n : Nat} {bs : List Byte} {v : Verdict} {c : StreamCfg}
    {r : Ring} {k : SlotId} (h : s.openSlot i (le16 bs 2) = some k) (effect : SlotId → State → State) :
    s.onOpen (handOf i n bs v c r) effect = effect k s := by
  simp only [State.onOpen, handOf, recBand, h]

/-- Settles O48: the lookups, and the two rows that end a band's drawing. -/
theorem closeAndDiscardEndTheBand : Obligations.CloseAndDiscardEndTheBand := by
  refine ⟨fun s i m k => ⟨State.openSlot_eq_some, State.sendingSlot_eq_some, fun hu => State.openSlot_iff_of_unique hu,
    fun hu hs => State.sendingSlot_iff_of_laws hu hs⟩, ?_⟩
  intro s i n bs c r k b hopen hb t
  have hslot : s.bands.slots.get k = some b := hb
  refine ⟨?_, ?_⟩
  · intro h b'
    have ring : ((s.mapSlot k fun x =>
        { x with st := .closed, notify := recNotify bs, tag := some (recTag bs) }).stream i).ring = some r := h.ring
    simp only [exec, execCloseBand, h.handOver, State.onOpen_of_openSlot hopen]
    refine congrArg Host.Outcome.next ((State.finishRecord_eq ring false .ok 0#32).trans ?_)
    simp only [State.mapSlot, State.putSlot, hb, Option.map_some]
    rfl
  · intro h d
    have ring : ((s.discardSlot k).stream i).ring = some r := by
      rw [State.stream_congr (State.discardSlot_frame k s).2.2.2.1]; exact h.ring
    have discarded : (s.discardSlot k).handed i r ((s.discardSlot k).stream i) = d := by
      simp only [State.discardSlot, hb]
      rfl
    simp only [exec, execDiscardBand, h.handOver, State.onOpen_of_openSlot hopen]
    refine congrArg Host.Outcome.next ((State.finishRecord_eq ring (recNotify bs) .ok _).trans ?_)
    rw [discarded]
    rfl

/-! ## MARK -/

/-- Settles O49: a MARK completes at hand-over, or waits in the mark list. -/
theorem marksCompleteOrJoinTheList : Obligations.MarksCompleteOrJoinTheList := by
  intro s i n bs c r h
  refine ⟨fun hnow => ?_, fun hemitted hlive => ?_⟩
  · have now : recEmitted bs = false ∨ (s.stream i).nextEmit = (s.stream i).nextOpen :=
      hnow.imp_left fun h0 => by simp [recEmitted, h0]
    simp only [exec, execMark, h.handOver]
    rw [if_pos (by exact now), State.finishRecord_eq h.ring]
    rfl
  · have later : ¬(recEmitted bs = false ∨ (s.stream i).nextEmit = (s.stream i).nextOpen) := by
      simp [recEmitted, hemitted, hlive]
    simp only [exec, execMark, h.handOver]
    rw [if_neg (by exact later)]
    refine congrArg Host.Outcome.next ((State.finishRecord_eq (by simpa [handOf] using h.ring) false .ok 0#32).trans ?_)
    simp only [handOf, State.handed_mapStream, State.stream_mapStream_same]
    rfl

end Sys2Proof.Machine
end

section
/-!
The drain's steps, the waits of an abort, and the ACCEPT of a TRAILER in the words of the statements (R11, R14, R39, R47 to R50).
-/

namespace Sys2Proof.Machine

/-! ## Drains -/

/-- Input-quiet as R38 says it. -/
theorem State.inputQuiet_iff {s : State} {i : StreamId} : s.inputQuiet i = true ↔
    (∃ g, (s.stream i).ring = some g ∧ g.head = g.tail) ∧ (s.stream i).latch = .empty ∧ s.raster.stream ≠ some i := by
  simp [State.inputQuiet, State.opInFlight, Option.any_eq_true, Ring.isEmpty, and_assoc]

/-- The conditions of the drain end as R39 says them. -/
theorem State.drainEnds_iff {s : State} {i : StreamId} : s.drainEnds i = true ↔
    s.port.part = .attached ∧ (s.stream i).st = .draining ∧
      ((∃ g, (s.stream i).ring = some g ∧ g.head = g.tail) ∧ (s.stream i).latch = .empty ∧ s.raster.stream ≠ some i) ∧
      (∀ k b, s.slot k = some b → b.stream ≠ i) ∧ (s.stream i).marks = [] ∧
      ((s.lane i).state = .idle ∨ (s.lane i).state = .syncing) := by
  simp only [State.drainEnds, Bool.and_eq_true, beq_iff_eq, Bool.not_eq_true', State.inputQuiet_iff,
    State.holdsSlot_false, List.isEmpty_iff, Bool.or_eq_true, and_assoc]

/-- Settles O53: the auto-close and the drain end, with and without their conditions. -/
theorem drainsCloseAndEnd : Obligations.DrainsCloseAndEnd := by
  intro s i quiet ends
  refine ⟨fun hpart hst hquiet => ?_, fun hnot => ?_, fun hends => ?_, fun hnot => ?_⟩
  · refine ⟨s.autoClose i, ?_, rfl, rfl, rfl, fun k => s.autoClose_slot i k⟩
    exact if_pos ⟨hpart, hst, State.inputQuiet_iff.2 hquiet⟩
  · refine if_neg ?_
    rintro ⟨hpart, hst, hquiet⟩
    rcases hnot with h | h | h
    · exact h hpart
    · exact h hst
    · exact h (State.inputQuiet_iff.1 hquiet)
  · exact congrArg Host.Outcome.next (if_pos (State.drainEnds_iff.2 hends))
  · exact congrArg Host.Outcome.next (if_neg fun h => hnot (State.drainEnds_iff.1 h))

/-! ## The abort's waits -/

/-- An ABORT_STEP of an ABORTING stream is the step of the wait it stands at (R47 to R49). -/
theorem execAbortStep_at {s : State} {i : StreamId} (hpart : s.port.part = .attached)
    (hst : (s.stream i).st = .aborting) {a : AbortAt} (ha : (s.stream i).abortAt = some a) :
    exec (.abortStep i) s = .next (match a with
      | .op => if s.opInFlight i then s else (s.stopLane i).mapStream i fun st => { st with abortAt := some .lane }
      | .lane => if (s.lane i).state = .offline then s.abortBands i else s
      | .marks => if (s.stream i).marks = [] then s.abortStop i else s
      | .stop => if (s.stream i).dstop = none then s.abortEnd i else s
      | .abort => s) := by
  simp only [exec, execAbortStep, if_pos (And.intro hpart hst), ha]
  cases a <;> rfl

/-- The lane after a stop order (R129, R130). -/
theorem State.stopLane_eq (i : StreamId) (s : State) : s.stopLane i = s.setLane i
    (if (s.lane i).state = .offline then s.lane i
     else if (s.lane i).latch = none ∧ (s.lane i).state ≠ .sending ∧ (s.lane i).state ≠ .cancelling then (s.lane i).offline
     else { s.lane i with stopPending := true }) := by
  rw [State.stopLane, State.mapLane_eq_setLane]
  congr 1
  split
  · rfl
  · simp only [Lane.settle, Bool.true_and, Bool.and_eq_true, Option.isNone_iff_eq_none, bne_iff_ne, ne_eq, and_assoc]
    rfl

/-- The keys rise along a list. -/
def KeysRise (key : SlotId → Nat) (l : List SlotId) : Prop := l.Pairwise fun j k => key j ≤ key k

theorem insertByKey_rises {key : SlotId → Nat} {k : SlotId} {l : List SlotId} (h : KeysRise key l) :
    KeysRise key (insertByKey key k l) := by
  induction l with
  | nil => exact List.pairwise_singleton _ _
  | cons x l ih =>
    obtain ⟨hx, hl⟩ := List.pairwise_cons.1 h
    simp only [insertByKey]
    split
    · next hlt =>
      refine List.pairwise_cons.2 ⟨fun y hy => ?_, h⟩
      rcases List.mem_cons.1 hy with rfl | hy
      · exact Nat.le_of_lt hlt
      · exact (Nat.le_of_lt hlt).trans (hx y hy)
    · next hge =>
      refine List.pairwise_cons.2 ⟨fun y hy => ?_, ih hl⟩
      rcases List.mem_cons.1 ((insertByKey_perm key k l).mem_iff.1 hy) with rfl | hy
      · exact Nat.le_of_not_lt hge
      · exact hx y hy

theorem foldl_insertByKey_rises {key : SlotId → Nat} (l : List SlotId) {acc : List SlotId} (h : KeysRise key acc) :
    KeysRise key (l.foldl (fun l k => insertByKey key k l) acc) := by
  induction l generalizing acc with
  | nil => exact h
  | cons k l ih => exact ih (insertByKey_rises h)

/-- The stream's slots stand in ascending distance from next-emit (R7). -/
theorem State.slotsByDistance_rises (s : State) (i : StreamId) :
    (s.slotsByDistance i).Pairwise fun j k => ∀ b b', s.slot j = some b → s.slot k = some b' →
      bandDist b.band (s.stream i).nextEmit ≤ bandDist b'.band (s.stream i).nextEmit := by
  refine List.Pairwise.imp ?_ (foldl_insertByKey_rises _ List.Pairwise.nil)
  intro j k hjk b b' hb hb'
  simpa only [hb, hb'] using hjk

theorem State.mem_slotsByDistance {s : State} {i : StreamId} {k : SlotId} :
    k ∈ s.slotsByDistance i ↔ ∃ b, s.slot k = some b ∧ b.stream = i := by
  rw [(s.slotsByDistance_perm i).mem_iff]
  simp [allSlots, Option.any_eq_true]

theorem State.slotsByDistance_nodup (s : State) (i : StreamId) : (s.slotsByDistance i).Nodup :=
  (s.slotsByDistance_perm i).nodup_iff.2 ((List.nodup_finRange 64).filter _)

/-- Freeing a stream's slots changes the band table alone. -/
theorem State.freeAll_eq (i : StreamId) (s : State) : s.freeAll i = { s with bands := (s.freeAll i).bands } := by
  obtain ⟨hport, hring, hadmin, hstreams, hintake, hraster, hlanes, hpending⟩ := State.freeAll_frame i s
  rw [State.mk.injEq]
  exact ⟨hport, hring, hadmin, hstreams, hintake, hraster, rfl, hlanes, hpending⟩

/-- The part as the abort's step 4 leaves it, before the marks that are due are offered (R17, R26, R49). -/
def State.bandsAborted (i : StreamId) (s : State) : State :=
  (s.freeAll i).mapStream i fun st =>
    { st with
      marks := st.marks.map fun m => { m with st := if m.st = .boundary then .dueAborted else m.st }
      abortAt := some .marks }

theorem State.abortBands_eq (i : StreamId) (s : State) : s.abortBands i = (s.bandsAborted i).offerStream i := rfl

theorem State.bandsAborted_eq (i : StreamId) (s : State) : s.bandsAborted i =
    { s.setStream i
      { s.stream i with
        abortAt := some .marks
        marks := (s.stream i).marks.map fun m => { m with st := if m.st = .boundary then .dueAborted else m.st } } with
      bands := (s.bandsAborted i).bands } := by
  have hbands : (s.bandsAborted i).bands = (s.freeAll i).bands := rfl
  rw [hbands, State.bandsAborted, State.freeAll_eq]
  rfl

/-- The admission of the due ABORT, the stream's only offer, ends the abort (R50). -/
theorem State.admitOffer_abort {s : State} {i : StreamId} {d : DeferredAbort} {g : Ring}
    (hmarks : ∀ m ∈ (s.stream i).marks, m.st = .boundary) (hstop : ∀ x, (s.stream i).dstop = some x → x.due = none)
    (hd : (s.stream i).dabort = some d) (hdue : d.due = true) (hg : (s.stream i).ring = some g) :
    s.admitOffer (.stream i) =
      { s.setStream i { s.stream i with
          st := .ready, skip := none, halt := none, dabort := none, abortAt := none
          ring := some { g with head := g.tail } } with
        ring := { s.ring with
          streamNext := i + 1
          queue := s.ring.queue ++ [adminEntry 0x13#8 d.tag d.index d.head .ok (BitVec.ofNat 32 g.count)] } } := by
  have nomark : (s.stream i).marks.find? (fun m => m.st != .boundary) = none := by
    simpa [List.find?_eq_none] using hmarks
  have offers : s.offer (.stream i) =
      some (adminEntry 0x13#8 d.tag d.index d.head .ok (BitVec.ofNat 32 g.count)) := by
    cases hs : (s.stream i).dstop with
    | none => simp [State.offer, Stream.offer, hs, nomark, hd, hdue, hg]
    | some x => simp [State.offer, Stream.offer, hs, hstop x hs, nomark, hd, hdue, hg]
  have admitted : (s.stream i).admitted = { s.stream i with
      st := .ready, skip := none, halt := none, dabort := none, abortAt := none
      ring := some { g with head := g.tail } } := by
    cases hs : (s.stream i).dstop with
    | none => simp [Stream.admitted, hs, nomark, hd, hdue, hg]
    | some x => simp [Stream.admitted, hs, hstop x hs, nomark, hd, hdue, hg]
  simp only [State.admitOffer, offers, State.released, State.mapStream_eq_setStream]
  rw [← admitted]
  rfl

/-- Settles O54: each wait of the abort, and the ABORT's admission. -/
theorem abortStepsPassTheirWaits : Obligations.AbortStepsPassTheirWaits := by
  refine ⟨fun s i hpart hst => ⟨fun ha => ?_, fun ha => ?_, fun ha => ?_, fun ha => ?_, fun ha => ?_⟩,
    fun s i d g hmarks hstop hd hdue hg => State.admitOffer_abort hmarks hstop hd hdue hg⟩
  all_goals rw [execAbortStep_at hpart hst ha]
  · refine ⟨fun hop => ?_, fun hop => ?_⟩
    · simp [State.opInFlight, hop]
    · have hno : s.opInFlight i = false := by simpa [State.opInFlight] using hop
      simp only [hno, State.stopLane_eq]
      rfl
  · refine ⟨fun hlane => by simp [hlane], fun hlane => ⟨s.bandsAborted i, ?_, s.bandsAborted_eq i,
      fun k => s.freeAll_slot i k, s.freeAll_mem i, s.slotsByDistance i, s.slotsByDistance_nodup i,
      fun k => State.mem_slotsByDistance, s.slotsByDistance_rises i, s.freeAll_free i⟩⟩
    simp [hlane, State.abortBands_eq]
  · refine ⟨fun hmarks => by simp [hmarks], fun hmarks => ?_⟩
    simp only [if_pos hmarks]
    rfl
  · refine ⟨fun hstop => by simp [hstop], fun hstop => ?_⟩
    simp only [if_pos hstop]
    rfl

/-! ## The ACCEPT of a TRAILER -/

/-- A reply that carries the seq of the begun exchange is taken (R100). -/
theorem State.Exchange.reply {s : State} {i : StreamId} {st : LaneState} {o : Outstanding} (h : s.Exchange i st o)
    (taken : Outstanding → State → State) : s.reply i o.seq taken = taken o s := by
  simp [State.reply, h.out, h.begun]

/-- BAND_SENT is posted through the lane's latch if the slot's notify is yes, but not in DETACHING (R14, R138). -/
theorem State.postSent_eq (i : StreamId) (b : BandSlot) (s : State) : s.postSent i b =
    if b.notify = true ∧ s.port.part ≠ .detaching then
      (s.setLane i { s.lane i with latch := some (.bandSent (b.tag.getD 0#32) b.band) }).admitAsMade (.lane i)
    else s := by
  unfold State.postSent State.postEvent
  cases b.notify with
  | false => simp
  | true =>
    by_cases h : s.port.part = .detaching
    · simp [h]
    · simp only [h, if_true, if_false, ne_eq, not_false_eq_true, and_self]
      rfl

/-- Settles O57: the trailer's acceptance, block by block in R14's order. -/
theorem acceptedTrailersReleaseTheBand : Obligations.AcceptedTrailersReleaseTheBand := by
  intro s i o n crc k b hx hframe hk hb taken left posts rests
  have accepted : s.mapLane i (Lane.accepted o) = taken := by
    rw [State.mapLane_eq_setLane]
    simp only [Lane.accepted, hframe]
    rfl
  have hleft : taken.passBand i k = left := State.passBand_eq (by exact hb)
  have sent : taken.sentBand i k = posts (left.offerStream i) := by
    have hslot : taken.slot k = some b := hb
    simp only [State.sentBand, hslot, hleft, State.postSent_eq, (State.offerStream_frame i left).1]
    rfl
  have hsend : taken.sendingSlot i = some k := hk
  show Host.Outcome.next (s.reply i o.seq (State.acceptTaken i)) = _
  rw [hx.reply]
  simp only [State.acceptTaken, hframe, accepted, State.bandEmitted, hsend, sent]
  rfl

end Sys2Proof.Machine
end

section
/-!
The moves of the stream states (R28): what each shared operation does to the state of every stream, where R49 holds.
-/

namespace Sys2Proof.Machine

/-! ## R49 along a step -/

theorem State.AbortLaw.of_streams {s t : State} (h : s.AbortLaw) (streams : t.streams = s.streams) : t.AbortLaw :=
  fun i => by rw [State.stream_congr streams]; exact h i

theorem State.AbortLaw.mapStream {s : State} (h : s.AbortLaw) {i : StreamId} {f : Stream → Stream}
    (hf : (f (s.stream i)).AbortOk) : (s.mapStream i f).AbortLaw := fun j => by
  rw [State.stream_mapStream]
  split
  · exact hf
  · exact h j

/-- Every move of the bands keeps R49. -/
theorem State.BandMove.keeps_abortLaw {s t : State} (m : s.BandMove t) (h : s.AbortLaw) : t.AbortLaw := by
  cases m with
  | calm _ streams => exact fun i => (streams i).abort (h i)
  | blank _ _ _ streams => intro i d hd; simp [State.stream, streams, Stream.initial] at hd
  | renumber i y _ _ abort =>
    intro j
    rw [State.stream_setStream]
    split
    · exact abort (h i)
    · exact h j
  | openNew i k pages _ _ =>
    intro j
    rw [State.openNew_stream]
    split
    · next e => exact e ▸ h j
    · exact h j
  | passBand k b _ _ =>
    intro j
    rw [State.passBand_stream]
    split
    · next e => exact e ▸ h j
    · exact h j
  | mapSlot k f _ _ => exact h.of_streams (by simp)
  | discardSlot k => exact h.of_streams (by simp)
  | autoClose i => exact h.of_streams (by simp)
  | freeAll i _ => exact h.of_streams (by simp)
  | writeRow op => exact h

/-- R49 holds at every point within a step where it held before. -/
theorem State.AbortLaw.after {s t : State} (h : s.AbortLaw) (m : s.BandMoves t) : t.AbortLaw :=
  m.keeps (fun _ _ m => m.keeps_abortLaw) h

/-! ## Streams that stay, and streams that move -/

/-- No stream changes its state. -/
def State.StreamsStay (s t : State) : Prop := ∀ i, (t.stream i).st = (s.stream i).st

/-- Every stream stays or makes one transition of R28's table. -/
def State.StreamsMove (s t : State) : Prop := ∀ i, streamMove (s.stream i).st (t.stream i).st = true

theorem streamMove_self (a : StreamState) : streamMove a a = true := by cases a <;> rfl

theorem State.StreamsStay.refl (s : State) : s.StreamsStay s := fun _ => rfl

theorem State.StreamsStay.of_frame {s t : State} (streams : t.streams = s.streams) : s.StreamsStay t :=
  fun i => by rw [State.stream_congr streams]

theorem State.StreamsStay.move {s t : State} (h : s.StreamsStay t) : s.StreamsMove t :=
  fun i => by rw [h i]; exact streamMove_self _

theorem State.StreamsStay.then {s t u : State} (h : s.StreamsStay t) (h' : t.StreamsStay u) : s.StreamsStay u :=
  fun i => (h' i).trans (h i)

theorem State.StreamsStay.thenMove {s t u : State} (h : s.StreamsStay t) (h' : t.StreamsMove u) : s.StreamsMove u :=
  fun i => h i ▸ h' i

theorem State.StreamsMove.thenStay {s t u : State} (h : s.StreamsMove t) (h' : t.StreamsStay u) : s.StreamsMove u :=
  fun i => by rw [h' i]; exact h i

theorem State.StreamsMove.refl (s : State) : s.StreamsMove s := (State.StreamsStay.refl s).move

theorem State.StreamsMove.of_frame {s t : State} (streams : t.streams = s.streams) : s.StreamsMove t :=
  (State.StreamsStay.of_frame streams).move

theorem State.StreamsMove.frame {s t u : State} (h : s.StreamsMove t) (streams : u.streams = t.streams) :
    s.StreamsMove u :=
  h.thenStay (.of_frame streams)

/-- Every stream becomes UNCONFIGURED at a reset, an attach and a detach's end (R28). -/
theorem State.StreamsMove.of_initial {s t : State} (streams : t.streams = Vector.replicate 4 Stream.initial) :
    s.StreamsMove t := fun i => by
  cases h : (s.stream i).st <;> simp [State.stream, streams, Stream.initial, streamMove]

theorem State.StreamsStay.mapStream {s : State} {i : StreamId} {f : Stream → Stream}
    (hf : (f (s.stream i)).st = (s.stream i).st) : s.StreamsStay (s.mapStream i f) := fun j => by
  rw [State.stream_mapStream]
  split
  · next e => rw [hf, e]
  · rfl

theorem State.StreamsMove.mapStream {s : State} {i : StreamId} {f : Stream → Stream}
    (hf : streamMove (s.stream i).st (f (s.stream i)).st = true) : s.StreamsMove (s.mapStream i f) := fun j => by
  rw [State.stream_mapStream]
  split
  · next e => rw [e, hf]
  · exact streamMove_self _

/-! ## Admissions (R50) -/

/-- Where R49 holds, the admission of a stream's offer keeps its state or ends its abort. -/
theorem Stream.admitted_st {x : Stream} (h : x.AbortOk) :
    x.admitted.st = x.st ∨ (x.st = .aborting ∧ x.admitted.st = .ready) := by
  rcases x.admitted_cases with e | ⟨_, e⟩ | e | ⟨d, hd, hdue, e⟩
  · exact .inl (by rw [e])
  · exact .inl (by rw [e])
  · exact .inl (by rw [e])
  · exact .inr ⟨(h d hd hdue).1, by rw [e]⟩

/-- The state of a stream before and after admissions: an admission ends no state but ABORTING (R50). -/
theorem State.admitOffer_st {s : State} (h : s.AbortLaw) (p : Producer) (j : StreamId) :
    ((s.admitOffer p).stream j).st = (s.stream j).st ∨
      ((s.stream j).st = .aborting ∧ ((s.admitOffer p).stream j).st = .ready) := by
  rw [State.admit_stream]
  split
  · exact Stream.admitted_st (h j)
  · exact .inl rfl

/-- One admission after another: the abort has ended after the first that ends it, and the stream is then READY. -/
theorem State.offerStream_st {s : State} (h : s.AbortLaw) (i j : StreamId) :
    ((s.offerStream i).stream j).st = (s.stream j).st ∨
      ((s.stream j).st = .aborting ∧ ((s.offerStream i).stream j).st = .ready) := by
  refine (State.offerStream_keeps (fun t => t.AbortLaw ∧ ((t.stream j).st = (s.stream j).st ∨
    ((s.stream j).st = .aborting ∧ (t.stream j).st = .ready))) i (fun t ht _ => ?_) s ⟨h, .inl rfl⟩).2
  obtain ⟨law, ht⟩ := ht
  refine ⟨law.after (t.admitOffer_moves _), ?_⟩
  rcases State.admitOffer_st law (.stream i) j with e | ⟨hab, hready⟩
  · rw [e]; exact ht
  · rcases ht with ht | ⟨_, ht⟩
    · exact .inr ⟨ht ▸ hab, hready⟩
    · rw [hab] at ht; cases ht

/-- A state that is kept, or an abort that has ended, is R28's. -/
theorem streamMove_of_abortEnd {a b : StreamState} (h : b = a ∨ (a = .aborting ∧ b = .ready)) :
    streamMove a b = true := by
  rcases h with rfl | ⟨rfl, rfl⟩
  · exact streamMove_self _
  · rfl

theorem State.admitOffer_streamsMove {s : State} (h : s.AbortLaw) (p : Producer) : s.StreamsMove (s.admitOffer p) :=
  fun j => streamMove_of_abortEnd (State.admitOffer_st h p j)

theorem State.offerStream_streamsMove {s : State} (h : s.AbortLaw) (i : StreamId) : s.StreamsMove (s.offerStream i) :=
  fun j => streamMove_of_abortEnd (State.offerStream_st h i j)

/-- The offers of one stream change no other. -/
theorem State.offerStream_ne {i j : StreamId} (hj : j ≠ i) (s : State) : (s.offerStream i).stream j = s.stream j :=
  State.offerStream_keeps (fun t => t.stream j = s.stream j) i
    (fun t ht _ => by rw [State.admit_stream, if_neg (by simp [Ne.symm hj]), ht]) s rfl

/-- The offers of a stream that is not ABORTING move no stream. -/
theorem State.offerStream_streamsStay {s : State} (h : s.AbortLaw) {i : StreamId} (hi : (s.stream i).st ≠ .aborting) :
    s.StreamsStay (s.offerStream i) := fun j => by
  by_cases hj : j = i
  · subst hj; exact (State.offerStream_st h j j).resolve_right fun e => hi e.1
  · rw [State.offerStream_ne hj]

/-! ## Stream control -/

theorem State.emptyLatch_streamsStay (i : StreamId) (s : State) : s.StreamsStay (s.emptyLatch i) :=
  (State.StreamsStay.mapStream (f := fun st => { st with latch := .empty }) rfl).then (.of_frame rfl)

/-- A halt claim takes a RUNNING or DRAINING stream to HALTED, and moves no other (R41). -/
theorem State.halt_streamsMove (i : StreamId) (info : HaltInfo) (s : State) : s.StreamsMove (s.halt i info) := by
  unfold State.halt
  split
  case h_1 hst => exact (State.StreamsMove.mapStream (by rw [hst]; rfl)).thenStay (State.emptyLatch_streamsStay i _)
  case h_2 hst => exact (State.StreamsMove.mapStream (by rw [hst]; rfl)).thenStay (State.emptyLatch_streamsStay i _)
  all_goals exact .refl s

/-- A drain end takes its DRAINING stream to READY and leaves every other where it is (R39). -/
theorem State.drainEnd_st {s : State} (h : s.AbortLaw) {i : StreamId} (hends : s.drainEnds i = true) (j : StreamId) :
    ((s.drainEnd i).stream j).st = if j = i then .ready else (s.stream j).st := by
  have hst : (s.stream i).st = .draining := (State.drainEnds_iff.1 hends).2.1
  have ok : (s.stream i).AbortOk := h i
  have settled := ok.not_due (.inl (by simp [hst]))
  have ended : (s.mapStream i fun st => { st with
      dstop := st.dstop.map fun d => { d with due := some (.ok, st.nextEmit) }
      st := .ready, ret := none, skip := none }).AbortLaw := h.mapStream (Stream.abortOk_of_not_due settled)
  rw [State.drainEnd, State.offerStream_streamsStay (ended.of_streams (State.mapLane_streams _ _ _)) (by simp) j,
    State.mapLane_stream, State.stream_mapStream]
  split <;> rfl

/-- The look for the drain end: nothing, or its DRAINING stream is READY (R39). -/
theorem State.lookForDrainEnd_cases {s : State} (h : s.AbortLaw) (i : StreamId) :
    s.lookForDrainEnd i = s ∨
      ((s.stream i).st = .draining ∧
        ∀ j, ((s.lookForDrainEnd i).stream j).st = if j = i then .ready else (s.stream j).st) := by
  unfold State.lookForDrainEnd
  split
  · next hends => exact .inr ⟨(State.drainEnds_iff.1 hends).2.1, State.drainEnd_st h hends⟩
  · exact .inl rfl

theorem State.lookForDrainEnd_streamsMove {s : State} (h : s.AbortLaw) (i : StreamId) :
    s.StreamsMove (s.lookForDrainEnd i) := by
  rcases State.lookForDrainEnd_cases h i with e | ⟨hst, e⟩
  · rw [e]; exact .refl s
  · intro j
    rw [e]
    split
    · next hj => rw [hj, hst]; rfl
    · exact streamMove_self _

/-! ## The lanes -/

theorem State.passBand_streamsStay (i : StreamId) (k : SlotId) (s : State) : s.StreamsStay (s.passBand i k) :=
  (State.StreamsStay.of_frame (by simp)).then (.mapStream rfl)

/-- The band that leaves makes marks due, whose admission moves no stream but out of an abort (R14, R50). -/
theorem State.skipBand_streamsMove {s : State} (h : s.AbortLaw) {i : StreamId} {k : SlotId}
    (hk : s.sendingSlot i = some k) : s.StreamsMove (s.skipBand i k) :=
  (s.passBand_streamsStay i k).thenMove (State.offerStream_streamsMove (h.after (State.passBand_moves hk)) i)

theorem State.bandEmitted_streamsMove {s : State} (h : s.AbortLaw) (i : StreamId) : s.StreamsMove (s.bandEmitted i) := by
  simp only [State.bandEmitted]
  split
  · exact .of_frame (by simp)
  · next k hk =>
    refine State.StreamsMove.frame (t := s.sentBand i k) ?_ (by simp)
    unfold State.sentBand
    split
    · exact .refl s
    · exact (State.skipBand_streamsMove h hk).frame (by simp [State.skipBand])

theorem State.acceptTaken_streamsMove {s : State} (h : s.AbortLaw) (i : StreamId) (o : Outstanding) :
    s.StreamsMove (s.acceptTaken i o) := by
  simp only [State.acceptTaken]
  split
  case h_4 =>
    exact (State.StreamsStay.of_frame (by simp)).thenMove
      (State.bandEmitted_streamsMove (h.after (.of_frame (by simp) (by simp))) i)
  all_goals
    refine .of_frame ?_
    repeat' split
    all_goals simp

theorem State.reply_streamsMove {i : StreamId} {seq : Seq} {taken : Outstanding → State → State} {s : State}
    (h : ∀ o, s.StreamsMove (taken o s)) : s.StreamsMove (s.reply i seq taken) := by
  unfold State.reply
  split
  · exact .of_frame (by simp)
  · split
    · exact h _
    · exact .of_frame (by simp)

/-! ## Hand-overs and the raster unit -/

theorem State.consumeRecord_streamsStay (i : StreamId) (s : State) : s.StreamsStay (s.consumeRecord i) :=
  (State.StreamsStay.mapStream (f := fun st => { st with latch := .empty, ring := st.ring.map Ring.advance }) rfl).then
    (.of_frame rfl)

theorem State.finishRecord_streamsStay (h : Hand) (owed : Bool) (st : Status) (extra : BitVec 32) (s : State) :
    s.StreamsStay (s.finishRecord h owed st extra) := by
  refine (s.consumeRecord_streamsStay h.stream).then (.of_frame ?_)
  simp only [State.finishRecord]
  split <;> simp

theorem State.failRecord_streamsMove (h : Hand) (st : Status) (band : Option Band) (s : State) :
    s.StreamsMove (s.failRecord h st band) :=
  ((s.consumeRecord_streamsStay h.stream).thenMove (State.halt_streamsMove _ _ _)).frame
    (State.holdEntry_frame _ _ _).2.2.1

theorem State.ringFault_streamsMove (i : StreamId) (n : Nat) (s : State) : s.StreamsMove (s.ringFault i n) :=
  State.StreamsMove.frame
    (State.StreamsStay.thenMove (t := { s with intake := s.intake.turn i }) (.of_frame rfl) (State.halt_streamsMove _ _ _))
    (State.holdEntry_frame _ _ _).2.2.1

theorem State.skipRecord_streamsStay (h : Hand) (k : RecKind) (s : State) : s.StreamsStay (s.skipRecord h k) :=
  .then (.mapStream rfl) (State.finishRecord_streamsStay _ _ _ _ _)

theorem State.beginOp_streamsStay (h : Hand) (kind : OpKind) (slot : SlotId) (area : Area) (s : State) :
    s.StreamsStay (s.beginOp h kind slot area) :=
  (s.consumeRecord_streamsStay h.stream).then (.of_frame (by simp [State.beginOp]))

/-- A record's hand-over moves the streams as its kind's effect does (R65). -/
theorem State.handOver_streamsMove {k : RecKind} {effect : Hand → State → State} {s : State}
    (h : ∀ h : Hand, s.StreamsMove (effect h s)) : s.StreamsMove (s.handOver k effect) := by
  unfold State.handOver
  split
  · exact .refl s
  · split
    · exact s.failRecord_streamsMove _ _ _
    · split
      · exact (s.skipRecord_streamsStay _ _).move
      · exact h _

theorem State.onOpen_streamsMove {h : Hand} {effect : SlotId → State → State} {s : State}
    (he : ∀ k, s.StreamsMove (effect k s)) : s.StreamsMove (s.onOpen h effect) := by
  unfold State.onOpen
  split
  · exact s.failRecord_streamsMove _ _ _
  · exact he _

theorem State.opFaults_streamsMove (op : Op) (s : State) : s.StreamsMove (s.opFaults op) := by
  simp only [State.opFaults]
  split
  · exact .of_frame rfl
  · exact State.StreamsMove.frame
      (State.StreamsStay.thenMove (.of_frame (by simp)) (State.halt_streamsMove op.stream _ (s.mapSlot op.slot _)))
      (State.admitAsMade_raster_frame _).2.2.1

theorem State.sourceFinishes_streamsMove (off : Nat) (res : Option (List Byte)) (op : Op) (s : State) :
    s.StreamsMove (s.sourceFinishes off res op) := by
  simp only [State.sourceFinishes]
  split
  · split
    · exact State.opFaults_streamsMove _ _
    · exact .of_frame rfl
  · split <;> split
    · exact State.opFaults_streamsMove _ _
    · exact .of_frame rfl
    · exact .of_frame (by simp)
    · exact .of_frame rfl

/-! ## The part's operations -/

/-- The silent abort of a detach takes a stream that emits to ABORTING (R164, log 13). -/
theorem State.detachBegins_streamsMove (s : State) : s.StreamsMove s.detachBegins := fun i => by
  rw [State.detachBegins_stream]
  cases h : (s.stream i).st <;> simp [Stream.abandoned, Stream.emits, Stream.takesRecords, h, streamMove]

theorem State.attachZero_streamsMove (s : State) : s.StreamsMove s.attachZero := by
  unfold State.attachZero
  split
  case h_2 => refine .of_frame ?_; split <;> (try split) <;> simp
  case h_3 => exact s.detachBegins_streamsMove
  case h_5 => exact s.detachBegins_streamsMove
  all_goals exact .refl s

theorem State.writeControl_streamsMove (value : BitVec 32) (s : State) : s.StreamsMove (s.writeControl value) := by
  unfold State.writeControl
  split
  · exact .of_initial rfl
  · split
    · exact .of_frame (by simp)
    · exact s.attachZero_streamsMove

theorem State.attachEnds_streamsMove (res : Option (List Byte)) (s : State) : s.StreamsMove (s.attachEnds res) := by
  unfold State.attachEnds
  split
  · exact .of_frame (by simp)
  · split
    · exact .of_frame (by simp)
    · split
      · exact .of_initial rfl
      · exact .of_frame (by simp)

theorem State.recordReadEnds_streamsStay (res : Option (List Byte)) (s : State) : s.StreamsStay (s.recordReadEnds res) := by
  unfold State.recordReadEnds
  split
  · exact .refl s
  · simp only
    split
    · exact .of_frame rfl
    · refine State.StreamsStay.then (t := { s with intake := { s.intake with fetchRead := none } }) (.of_frame rfl)
        (.mapStream ?_)
      repeat' split
      all_goals rfl

theorem State.sourceReadEnds_streamsMove (off : Nat) (res : Option (List Byte)) (s : State) :
    s.StreamsMove (s.sourceReadEnds off res) := by
  unfold State.sourceReadEnds
  split
  · split
    · exact s.sourceFinishes_streamsMove _ _ _
    · exact .refl s
  all_goals exact .refl s

theorem State.readEnds_streamsMove (r : ReadReq) (res : Option (List Byte)) (s : State) :
    s.StreamsMove (s.readEnds r res) := by
  unfold State.readEnds
  refine State.StreamsStay.thenMove
    (t := { s with port := { s.port with outstanding := s.port.outstanding.filter fun q => q.id != r.id } })
    (.of_frame rfl) ?_
  simp only
  split
  · split
    · exact State.attachEnds_streamsMove _ _
    · exact .refl _
  · exact .of_frame (by simp)
  · exact (State.recordReadEnds_streamsStay _ _).move
  · exact State.sourceReadEnds_streamsMove _ _ _

theorem State.takeCompletion_streamsMove (id offset : Nat) (data : List Byte) (good : Bool) (s : State) :
    s.StreamsMove (s.takeCompletion id offset data good) := by
  simp only [State.takeCompletion]
  split
  · exact .refl s
  · split
    · exact .refl s
    · split
      · split
        · exact s.readEnds_streamsMove _ _
        · exact .of_frame rfl
      · exact s.readEnds_streamsMove _ _

theorem State.setStreamTail_streamsStay (i : StreamId) (r : Ring) (index : Nat) (s : State) :
    s.StreamsStay (s.setStreamTail i r index) := by
  have tail : s.StreamsStay (s.mapStream i fun st => { st with ring := some { r with tail := index } }) := .mapStream rfl
  simp only [State.setStreamTail]
  split
  · exact tail.then (State.emptyLatch_streamsStay i _)
  · exact tail

theorem State.notify_streamsStay (queue : BitVec 8) (index : BitVec 16) (s : State) :
    s.StreamsStay (s.notify queue index) := by
  have reject : s.StreamsStay s.rejectNotify := .of_frame (by simp)
  simp only [State.notify]
  split
  · exact reject
  split
  · split
    · split
      · exact .of_frame (by simp)
      · exact reject
    · exact reject
  split
  · split
    · exact reject
    · split
      · split
        · exact s.setStreamTail_streamsStay _ _ _
        · exact reject
      · exact reject
  split
  · split
    · split
      · exact .of_frame rfl
      · exact reject
    · exact reject
  · exact reject

theorem State.writeRegister_streamsMove (offset : BitVec 12) (size : Nat) (value : BitVec 32) (s : State) :
    s.StreamsMove (s.writeRegister offset size value) := by
  unfold State.writeRegister
  split
  · exact .refl s
  · split
    · exact s.writeControl_streamsMove _
    · exact .of_frame rfl
    · exact .of_frame rfl
    · exact (s.notify_streamsStay _ _).move
    · exact .of_frame (by simp)
    · exact .of_frame (by simp)
    · exact .refl s

end Sys2Proof.Machine
end

section
/-!
Each row moves every stream along one transition of R28's table at most, but for a CLEAR_STREAM that finds the drain end
(log 21).
-/

namespace Sys2Proof.Machine

/-! ## The admin commands -/

/-- What the refusals of a command have, and its effect on a stream in a state that takes it, the command has (R30). -/
theorem State.runCommand_keeps {P : State → Prop} {a : AdminCmd} {c : Command} {taken : Stream → Lane → Bool}
    {fieldsOk : Bool} {effect : StreamId → State → State} {s : State} (refused : ∀ st extra, P (s.complete a st extra))
    (h : ∀ i, taken (s.stream i) (s.lane i) = true → P (effect i s)) : P (s.runCommand a c taken fieldsOk effect) := by
  simp only [State.runCommand]
  split
  · split
    · exact refused _ _
    · next ht =>
      split
      · exact refused _ _
      · exact h _ (by simpa using ht)
  · exact refused _ _

/-- The completion of a command moves no stream (R29). -/
theorem State.StreamsMove.complete {s t : State} (m : s.StreamsMove t) (a : AdminCmd) (st : Status) (extra : BitVec 32) :
    s.StreamsMove (t.complete a st extra) :=
  m.frame (by simp)

/-- Nor does its consumption without one (R29). -/
theorem State.StreamsMove.leaveCommand {s t : State} (m : s.StreamsMove t) (a : AdminCmd) :
    s.StreamsMove (t.leaveCommand a) :=
  m.frame rfl

/-- A change of a lane moves no stream. -/
theorem State.StreamsMove.mapLane {s t : State} (m : s.StreamsMove t) (i : StreamId) (f : Lane → Lane) :
    s.StreamsMove (t.mapLane i f) :=
  m.frame rfl

/-- Nor does a lane's synchronisation (R106). -/
theorem State.StreamsMove.enterSyncing {s t : State} (m : s.StreamsMove t) (i : StreamId) :
    s.StreamsMove (t.enterSyncing i) :=
  m.mapLane i _

/-- A command moves the streams as its effect does (R30). -/
theorem State.runCommand_streamsMove {a : AdminCmd} {c : Command} {taken : Stream → Lane → Bool} {fieldsOk : Bool}
    {effect : StreamId → State → State} {s : State}
    (h : ∀ i, taken (s.stream i) (s.lane i) = true → s.StreamsMove (effect i s)) :
    s.StreamsMove (s.runCommand a c taken fieldsOk effect) :=
  State.runCommand_keeps (fun _ _ => .complete (.refl s) a _ _) h

theorem execConfigureStream_streamsMove {s t : State} (h : execConfigureStream s = .next t) : s.StreamsMove t := by
  unfold execConfigureStream at h
  split at h <;> cases h
  · exact .refl s
  · refine State.runCommand_streamsMove fun i hi => ?_
    split
    · exact .complete (.refl s) _ _ _
    · split
      · exact .complete (.refl s) _ _ _
      · refine .complete (.mapStream ?_) _ _ _
        simp only [Bool.or_eq_true, beq_iff_eq] at hi
        rcases hi with e | e <;> rw [e] <;> rfl

theorem execReleaseStream_streamsMove {s t : State} (h : execReleaseStream s = .next t) : s.StreamsMove t := by
  unfold execReleaseStream at h
  split at h <;> cases h
  · exact .refl s
  · refine State.runCommand_streamsMove fun i hi => .complete (.mapLane (.mapStream ?_) i _) _ _ _
    rw [eq_of_beq hi]
    rfl

theorem execStartStream_streamsMove {s t : State} (h : execStartStream s = .next t) : s.StreamsMove t := by
  unfold execStartStream at h
  split at h <;> cases h
  · exact .refl s
  · refine State.runCommand_streamsMove fun i hi =>
      .complete (.enterSyncing (.mapLane (.mapStream ?_) i _) i) _ _ _
    rw [eq_of_beq hi]
    rfl

theorem execStopStream_streamsMove {s t : State} (h : execStopStream s = .next t) : s.StreamsMove t := by
  unfold execStopStream at h
  split at h <;> cases h
  · exact .refl s
  · refine State.runCommand_streamsMove fun i _ => ?_
    split
    · exact .complete (.refl s) _ _ _
    · split
      · next hrun => exact .leaveCommand (.mapStream (by rw [hrun]; rfl)) _
      · exact .leaveCommand (.mapStream (streamMove_self _)) _

theorem execAbortStream_streamsMove {s t : State} (h : execAbortStream s = .next t) : s.StreamsMove t := by
  unfold execAbortStream at h
  split at h <;> cases h
  · exact .refl s
  · refine State.runCommand_streamsMove fun i hi => ?_
    split
    · exact .complete (.mapStream (streamMove_self _)) _ _ _
    · next hready =>
      refine .leaveCommand (.thenStay (.mapStream ?_) (State.emptyLatch_streamsStay i _)) _
      simp only [Stream.abortable, Bool.or_eq_true, beq_iff_eq, hready, false_or, Stream.emits_iff] at hi
      rcases hi with e | e | e <;> rw [e] <;> rfl

theorem execClearLaneResend_streamsMove {s t : State} (ha : s.AbortLaw) (h : execClearLaneResend s = .next t) :
    s.StreamsMove t := by
  unfold execClearLaneResend at h
  split at h <;> cases h
  · exact .refl s
  · refine State.runCommand_streamsMove fun i _ => .complete ?_ _ _ _
    exact (State.StreamsStay.of_frame (by simp)).thenMove
      (State.lookForDrainEnd_streamsMove (ha.after (.enterSyncing .refl i)) i)

/-- The skipped band of a stream that emits leaves that stream's state, so that a drain end is its one transition (R39,
R128). -/
theorem execClearLaneSkip_streamsMove {s t : State} (ha : s.AbortLaw) (h : execClearLaneSkip s = .next t) :
    s.StreamsMove t := by
  unfold execClearLaneSkip at h
  split at h <;> cases h
  · exact .refl s
  · refine State.runCommand_streamsMove fun i hi => ?_
    have emits : (s.stream i).emits = true := by
      simp only [laneClearable, Bool.and_eq_true] at hi
      exact hi.1
    split
    · exact .complete ((State.StreamsStay.of_frame (by simp)).thenMove
        (State.lookForDrainEnd_streamsMove (ha.after (.enterSyncing .refl i)) i)) _ _ _
    · next k hk =>
      have passed : s.StreamsStay (s.passBand i k) := s.passBand_streamsStay i k
      have skipped : s.StreamsStay (s.skipBand i k) :=
        passed.then (State.offerStream_streamsStay (ha.after (State.passBand_moves hk))
          (by rw [passed i]; exact Stream.not_aborting_of_emits emits))
      refine .complete ((skipped.then (.of_frame (by simp))).thenMove
        (State.lookForDrainEnd_streamsMove (ha.after ?_) i)) _ _ _
      exact .enterSyncing (State.skipBand_moves hk) i

theorem execQueryStream_streamsMove {s t : State} (h : execQueryStream s = .next t) : s.StreamsMove t := by
  unfold execQueryStream at h
  split at h <;> cases h
  · exact .refl s
  · refine State.runCommand_streamsMove fun i _ => ?_
    split
    · refine .complete ?_ _ _ _
      exact .of_frame rfl
    · exact .of_frame rfl

theorem execUnknownCommand_streamsMove {s t : State} (h : execUnknownCommand s = .next t) : s.StreamsMove t := by
  unfold execUnknownCommand at h
  split at h <;> cases h
  · exact .refl s
  · exact .complete (.refl s) _ _ _

/-! ## CLEAR_STREAM (log 21) -/

/-- What a CLEAR_STREAM can do to the streams' states: one transition at most, or from HALTED, drain-pending, through
DRAINING to READY. -/
def State.ClearMoves (s t : State) : Prop := ∀ j, streamMove (s.stream j).st (t.stream j).st = true ∨
  ((s.stream j).st = .halted ∧ (s.stream j).ret = some .draining ∧ (t.stream j).st = .ready)

theorem State.ClearMoves.refl (s : State) : s.ClearMoves s := fun _ => .inl (streamMove_self _)

theorem State.ClearMoves.complete {s t : State} (m : s.ClearMoves t) (a : AdminCmd) (st : Status) (extra : BitVec 32) :
    s.ClearMoves (t.complete a st extra) := fun j => by
  rw [State.stream_congr (State.complete_frame a st extra t).2.1]
  exact m j

/-- The resumed stream finds its drain end only if its return state was DRAINING (R39, R43). -/
theorem State.clearMoves_of_resumed {s u : State} {i : StreamId} (hst : (s.stream i).st = .halted)
    (hu : (s.mapStream i Stream.resumed).StreamsStay u) (ha : u.AbortLaw) : s.ClearMoves (u.lookForDrainEnd i) := fun j => by
  have hu := hu j
  rcases State.lookForDrainEnd_cases ha i with e | ⟨hdrain, e⟩
  · refine .inl ?_
    rw [e, hu, State.stream_mapStream]
    split
    · next hj =>
      rw [hj, hst]
      by_cases hret : (s.stream i).ret = some .draining <;> simp [Stream.resumed, hret, streamMove]
    · exact streamMove_self _
  · rw [e]
    by_cases hj : j = i
    · subst hj
      rw [hu, State.stream_mapStream_same] at hdrain
      refine .inr ⟨hst, ?_, if_pos rfl⟩
      by_contra hret
      simp [Stream.resumed, hret] at hdrain
    · rw [if_neg hj, hu, State.stream_mapStream_ne _ _ hj]
      exact .inl (streamMove_self _)

theorem execClearStreamResume_clearMoves {s t : State} (ha : s.AbortLaw) (h : execClearStreamResume s = .next t) :
    s.ClearMoves t := by
  unfold execClearStreamResume at h
  split at h <;> cases h
  · exact .refl s
  · refine State.runCommand_keeps (fun _ _ => .complete (.refl s) _ _ _) fun i hi => .complete ?_ _ _ _
    exact State.clearMoves_of_resumed (eq_of_beq hi) (.refl _) (ha.after (Stream.resumed_moves hi))

theorem execClearStreamSkipBand_clearMoves {s t : State} (ha : s.AbortLaw) (h : execClearStreamSkipBand s = .next t) :
    s.ClearMoves t := by
  unfold execClearStreamSkipBand at h
  split at h <;> cases h
  · exact .refl s
  · refine State.runCommand_keeps (fun _ _ => .complete (.refl s) _ _ _) fun i hi => ?_
    have resumed := Stream.resumed_moves hi
    have only : s.ClearMoves ((s.mapStream i Stream.resumed).lookForDrainEnd i) :=
      State.clearMoves_of_resumed (eq_of_beq hi) (.refl _) (ha.after resumed)
    simp only
    split
    · exact .complete only _ _ _
    · split
      · exact .complete only _ _ _
      · next k _ =>
        refine .complete (State.clearMoves_of_resumed (eq_of_beq hi) ?_ (ha.after (resumed.then ?_))) _ _ _
        · exact (State.StreamsStay.of_frame (by simp)).then (.mapStream rfl)
        · exact (State.BandMove.moves (.discardSlot k)).then (.mapStream (.of_eq rfl rfl rfl rfl rfl))

/-! ## Hand-overs -/

theorem execOpenBand_streamsMove {s t : State} (h : execOpenBand s = .next t) : s.StreamsMove t := by
  cases h
  refine State.handOver_streamsMove fun h => ?_
  simp only
  split
  · exact State.failRecord_streamsMove _ _ _ _
  · split
    · exact State.failRecord_streamsMove _ _ _ _
    · split
      · exact .refl s
      · next k _ =>
        have opened : s.StreamsStay (s.openNew h.stream k (recBand h.bytes) h.cfg.pages) :=
          .then (.of_frame rfl) (.mapStream rfl)
        split
        · exact (opened.then (State.beginOp_streamsStay _ _ _ _ _)).move
        · exact (opened.then (State.finishRecord_streamsStay _ _ _ _ _)).move

theorem execFillRect_streamsMove {s t : State} (h : execFillRect s = .next t) : s.StreamsMove t := by
  cases h
  exact State.handOver_streamsMove fun h => State.onOpen_streamsMove fun k => (State.beginOp_streamsStay _ _ _ _ _).move

theorem execPlace_streamsMove {s t : State} (h : execPlace s = .next t) : s.StreamsMove t := by
  cases h
  exact State.handOver_streamsMove fun h => State.onOpen_streamsMove fun k => (State.beginOp_streamsStay _ _ _ _ _).move

theorem execCopyRect_streamsMove {s t : State} (h : execCopyRect s = .next t) : s.StreamsMove t := by
  cases h
  refine State.handOver_streamsMove fun h => State.onOpen_streamsMove fun k => ?_
  split
  · exact State.failRecord_streamsMove _ _ _ _
  · exact (State.beginOp_streamsStay _ _ _ _ _).move

theorem execCloseBand_streamsMove {s t : State} (h : execCloseBand s = .next t) : s.StreamsMove t := by
  cases h
  refine State.handOver_streamsMove fun h => State.onOpen_streamsMove fun k => ?_
  exact ((State.StreamsStay.of_frame (by simp)).then (State.finishRecord_streamsStay _ _ _ _ _)).move

theorem execDiscardBand_streamsMove {s t : State} (h : execDiscardBand s = .next t) : s.StreamsMove t := by
  cases h
  refine State.handOver_streamsMove fun h => State.onOpen_streamsMove fun k => ?_
  exact ((State.StreamsStay.of_frame (by simp)).then (State.finishRecord_streamsStay _ _ _ _ _)).move

theorem execMark_streamsMove {s t : State} (h : execMark s = .next t) : s.StreamsMove t := by
  cases h
  refine State.handOver_streamsMove fun h => ?_
  simp only
  split
  · exact (State.finishRecord_streamsStay _ _ _ _ _).move
  · exact (State.StreamsStay.then (.mapStream rfl) (State.finishRecord_streamsStay _ _ _ _ _)).move

theorem execUnknownRecordKind_streamsMove {s t : State} (h : execUnknownRecordKind s = .next t) : s.StreamsMove t := by
  unfold execUnknownRecordKind at h
  split at h <;> cases h
  · exact .refl s
  · exact State.failRecord_streamsMove _ _ _ _

theorem execRingFault_streamsMove {s t : State} (h : execRingFault s = .next t) : s.StreamsMove t := by
  unfold execRingFault at h
  split at h
  · cases h; exact .refl s
  · split at h <;> cases h
    · exact State.ringFault_streamsMove _ _ _
    all_goals exact .refl s

/-! ## The part's own steps -/

theorem execRecordFetch_streamsMove {s t : State} (h : execRecordFetch s = .next t) : s.StreamsMove t := by
  unfold execRecordFetch at h
  split at h
  · cases h; exact .refl s
  · split at h <;> cases h
    · exact .refl s
    · next i _ _ r _ =>
      have latched : s.StreamsStay (s.mapStream i fun st => { st with latch := .fetching r.head }) := .mapStream rfl
      exact latched.move.frame rfl

theorem execAdminFetch_streamsMove {s t : State} (h : execAdminFetch s = .next t) : s.StreamsMove t := by
  unfold execAdminFetch at h
  split at h
  · split at h <;> cases h
    · exact .of_frame rfl
    · exact .refl s
  · cases h; exact .refl s

theorem execReadLimitExpiry_streamsMove {request : Nat} {s t : State} (h : execReadLimitExpiry request s = .next t) :
    s.StreamsMove t := by
  unfold execReadLimitExpiry at h
  split at h <;> cases h
  · exact State.readEnds_streamsMove _ _ _
  · exact .refl s

theorem execRowWrite_streamsMove {s t : State} (h : execRowWrite s = .next t) : s.StreamsMove t := by
  unfold execRowWrite at h
  split at h <;> cases h
  · split
    · exact .of_frame (by simp)
    · exact .refl s
  all_goals exact .refl s

/-- The arbiter's admission and the offers that follow it: an abort ends at most once (R50, R151). -/
theorem execEntryAdmission_streamsMove {s t : State} (ha : s.AbortLaw) (h : execEntryAdmission s = .next t) :
    s.StreamsMove t := by
  unfold execEntryAdmission at h
  split at h
  · split at h <;> cases h
    · exact .refl s
    · next p _ =>
      have law : (s.admitOffer p).AbortLaw := ha.after (s.admitOffer_moves p)
      cases p with
      | stream i =>
        intro j
        refine streamMove_of_abortEnd ?_
        rcases State.admitOffer_st ha (.stream i) j with e | ⟨hst, e⟩
        · rw [← e]; exact State.offerStream_st law i j
        · refine .inr ⟨hst, ((State.offerStream_st law i j).resolve_right fun hab => ?_).trans e⟩
          rw [e] at hab
          cases hab.1
      | lane | raster | admin => exact State.admitOffer_streamsMove ha _
  · cases h; exact .refl s

theorem execCompletionEntryWrite_streamsMove {s t : State} (h : execCompletionEntryWrite s = .next t) :
    s.StreamsMove t := by
  unfold execCompletionEntryWrite at h
  split at h <;> cases h
  · refine .of_frame ?_; split <;> simp
  · exact .refl s

theorem execCoalesceTimerExpiry_streamsMove {s t : State} (h : execCoalesceTimerExpiry s = .next t) :
    s.StreamsMove t := by
  unfold execCoalesceTimerExpiry at h
  split at h <;> cases h
  · exact .refl s
  · refine .of_frame ?_; split <;> simp

theorem execDrainAutoClose_streamsMove {i : StreamId} {s t : State} (h : execDrainAutoClose i s = .next t) :
    s.StreamsMove t := by
  unfold execDrainAutoClose at h
  split at h <;> cases h
  · exact .of_frame (by simp)
  · exact .refl s

/-- Steps 4 and 5 leave the stream ABORTING, and R49 as it was (R49). -/
theorem State.abortBands_streamsMove {s : State} (ha : s.AbortLaw) {i : StreamId}
    (hat : (s.stream i).abortAt = some .lane) : s.StreamsMove (s.abortBands i) := by
  have ok : (s.stream i).AbortOk := ha i
  have free : (s.freeAll i).streams = s.streams := by simp
  have law : (s.bandsAborted i).AbortLaw := State.AbortLaw.mapStream (ha.of_streams free) <| by
    rw [State.stream_congr free]
    exact Stream.abortOk_of_not_due (ok.not_due (.inr (by simp [hat])))
  rw [State.abortBands_eq]
  exact ((State.StreamsStay.of_frame free).then (.mapStream rfl)).thenMove (State.offerStream_streamsMove law i)

/-- So does step 6 (R49). -/
theorem State.abortStop_streamsMove {s : State} (ha : s.AbortLaw) {i : StreamId}
    (hat : (s.stream i).abortAt = some .marks) : s.StreamsMove (s.abortStop i) := by
  have ok : (s.stream i).AbortOk := ha i
  exact (State.StreamsStay.mapStream rfl).thenMove (State.offerStream_streamsMove
    (ha.mapStream (Stream.abortOk_of_not_due (ok.not_due (.inr (by simp [hat]))))) i)

/-- Step 7 makes the ABORT due, whose admission ends the abort (R49, R50). -/
theorem State.abortEnd_streamsMove {s : State} (ha : s.AbortLaw) {i : StreamId} (hst : (s.stream i).st = .aborting) :
    s.StreamsMove (s.abortEnd i) :=
  (State.StreamsStay.mapStream rfl).thenMove (State.offerStream_streamsMove (ha.mapStream fun _ _ _ => ⟨hst, rfl⟩) i)

/-- A wait of the abort is passed with the stream ABORTING; the admission of a due ABORT makes it READY (R47 to R50). -/
theorem execAbortStep_streamsMove {i : StreamId} {s t : State} (ha : s.AbortLaw) (h : execAbortStep i s = .next t) :
    s.StreamsMove t := by
  unfold execAbortStep at h
  split at h
  · next hc =>
    split at h <;> cases h
    · split
      · exact .refl s
      · exact ((State.StreamsStay.of_frame (by simp)).then (.mapStream rfl)).move
    · next hat =>
      split
      · exact State.abortBands_streamsMove ha hat
      · exact .refl s
    · next hat =>
      split
      · exact State.abortStop_streamsMove ha hat
      · exact .refl s
    · split
      · exact State.abortEnd_streamsMove ha hc.2
      · exact .refl s
    all_goals exact .refl s
  · cases h; exact .refl s

theorem execSyncSend_streamsMove {i : StreamId} {s t : State} (h : execSyncSend i s = .next t) : s.StreamsMove t := by
  unfold execSyncSend at h
  split at h
  · cases h; exact .refl s
  · split at h <;> cases h
    · exact .of_frame rfl
    · exact .refl s

theorem execBandStart_streamsMove {i : StreamId} {s t : State} (h : execBandStart i s = .next t) : s.StreamsMove t := by
  unfold execBandStart at h
  split at h <;> cases h
  · exact .refl s
  · exact .of_frame (by simp)

theorem execBadFrame_streamsMove {i : StreamId} {bytes : List Byte} {s t : State} (ha : s.AbortLaw)
    (h : execBadFrame i bytes s = .next t) : s.StreamsMove t := by
  unfold execBadFrame at h
  split at h <;> cases h
  · exact .of_frame (by simp)
  · exact State.reply_streamsMove fun o => State.acceptTaken_streamsMove ha i o
  · exact State.reply_streamsMove fun o => .of_frame (by simp)
  · exact State.reply_streamsMove fun o => .of_frame (by simp)
  · exact .of_frame (by simp)

theorem execReplyTimerExpiry_streamsMove {i : StreamId} {s t : State} (h : execReplyTimerExpiry i s = .next t) :
    s.StreamsMove t := by
  unfold execReplyTimerExpiry at h
  split at h <;> cases h
  · exact .refl s
  · split
    · exact .of_frame (by simp)
    · exact .refl s

theorem execWaitTimerExpiry_streamsMove {i : StreamId} {s t : State} (h : execWaitTimerExpiry i s = .next t) :
    s.StreamsMove t := by
  unfold execWaitTimerExpiry at h
  split at h <;> cases h
  · exact .refl s
  · split
    · exact .of_frame rfl
    · exact .refl s

/-! ## The inversion of a step -/

/-- Every row but CLEAR_STREAM's two takes a stream along one transition of R28's table at most. -/
theorem exec_streamsMove {c : Instr} (hresume : c ≠ .clearStreamResume) (hskip : c ≠ .clearStreamSkipBand) {s t : State}
    (ha : s.AbortLaw) (h : exec c s = .next t) : s.StreamsMove t := by
  cases c with
  | powerOn => cases h; exact .of_initial rfl
  | fundamentalReset => cases h; exact .of_initial rfl
  | functionReset attach => cases h; exact s.writeControl_streamsMove _
  | attach => cases h; exact s.writeControl_streamsMove _
  | attachCancel => cases h; exact s.writeControl_streamsMove _
  | detach => cases h; exact s.writeControl_streamsMove _
  | detachEnd =>
    simp only [exec, execDetachEnd] at h
    split at h <;> cases h
    · exact .of_initial rfl
    · exact .refl s
  | notifyAdminTail index => cases h; exact (s.notify_streamsStay _ _).move
  | notifyStreamTail stream index => cases h; exact (s.notify_streamsStay _ _).move
  | notifyRelease index => cases h; exact (s.notify_streamsStay _ _).move
  | notifyUnusedQueue queue index => cases h; exact (s.notify_streamsStay _ _).move
  | eventCauseWrite value => cases h; exact .of_frame (by simp)
  | eventMaskWrite value => cases h; exact .of_frame (by simp)
  | registerWrite offset size value => cases h; exact s.writeRegister_streamsMove _ _ _
  | configBusMasterEnable busMaster messages => cases h; refine .of_frame ?_; split <;> (try split) <;> simp
  | configBusMasterDisable busMaster messages => cases h; exact .of_frame rfl
  | linkLoss => cases h; refine .of_frame ?_; split <;> simp
  | linkUp => cases h; refine .of_frame ?_; split <;> simp
  | readCompletion request offset data good => cases h; exact s.takeCompletion_streamsMove _ _ _ _
  | readLimitExpiry request => exact execReadLimitExpiry_streamsMove h
  | adminFetch => exact execAdminFetch_streamsMove h
  | unknownCommand => exact execUnknownCommand_streamsMove h
  | configureStream => exact execConfigureStream_streamsMove h
  | startStream => exact execStartStream_streamsMove h
  | stopStream => exact execStopStream_streamsMove h
  | abortStream => exact execAbortStream_streamsMove h
  | releaseStream => exact execReleaseStream_streamsMove h
  | clearStreamResume => exact absurd rfl hresume
  | clearStreamSkipBand => exact absurd rfl hskip
  | clearLaneResend => exact execClearLaneResend_streamsMove ha h
  | clearLaneSkip => exact execClearLaneSkip_streamsMove ha h
  | queryStream => exact execQueryStream_streamsMove h
  | recordFetch => exact execRecordFetch_streamsMove h
  | ringFault => exact execRingFault_streamsMove h
  | unknownRecordKind => exact execUnknownRecordKind_streamsMove h
  | openBand => exact execOpenBand_streamsMove h
  | fillRect => exact execFillRect_streamsMove h
  | place => exact execPlace_streamsMove h
  | copyRect => exact execCopyRect_streamsMove h
  | closeBand => exact execCloseBand_streamsMove h
  | discardBand => exact execDiscardBand_streamsMove h
  | mark => exact execMark_streamsMove h
  | rowWrite => exact execRowWrite_streamsMove h
  | entryAdmission => exact execEntryAdmission_streamsMove ha h
  | completionEntryWrite => exact execCompletionEntryWrite_streamsMove h
  | coalesceTimerExpiry => exact execCoalesceTimerExpiry_streamsMove h
  | drainAutoClose stream => exact execDrainAutoClose_streamsMove h
  | drainEnd stream => cases h; exact State.lookForDrainEnd_streamsMove ha stream
  | abortStep stream => exact execAbortStep_streamsMove ha h
  | syncSend lane => exact execSyncSend_streamsMove h
  | bandStart lane => exact execBandStart_streamsMove h
  | frameSent lane => cases h; exact .of_frame rfl
  | accept lane seq => cases h; exact State.reply_streamsMove fun o => State.acceptTaken_streamsMove ha lane o
  | wait lane seq => cases h; exact State.reply_streamsMove fun o => .of_frame (by simp)
  | refuse lane seq reason => cases h; exact State.reply_streamsMove fun o => .of_frame (by simp)
  | credit lane grant => cases h; refine .of_frame ?_; split <;> simp
  | badFrame lane bytes => exact execBadFrame_streamsMove ha h
  | replyTimerExpiry lane => exact execReplyTimerExpiry_streamsMove h
  | waitTimerExpiry lane => exact execWaitTimerExpiry_streamsMove h
  | starveTimerExpiry lane => cases h; refine .of_frame ?_; split <;> simp

/-- Settles O8: a CLEAR_STREAM by what it can do to a HALTED stream, every other row by its one transition. -/
theorem streamsMoveByTheTable : Obligations.StreamsMoveByTheTable := by
  intro s t i ha hstep
  unfold step at hstep
  split at hstep
  · cases hstep; exact .inl (streamMove_self _)
  · next c rest hpending =>
    have law : ({ s with pending := rest } : State).AbortLaw := ha
    by_cases hc : c = .clearStreamResume ∨ c = .clearStreamSkipBand
    · have cleared : ({ s with pending := rest } : State).ClearMoves t := by
        rcases hc with rfl | rfl
        · exact execClearStreamResume_clearMoves law hstep
        · exact execClearStreamSkipBand_clearMoves law hstep
      refine (cleared i).imp id fun ⟨hst, hret, hready⟩ => ⟨⟨rest, ?_⟩, hst, hret, hready, rfl, rfl⟩
      rcases hc with rfl | rfl
      · exact .inl hpending
      · exact .inr hpending
    · rw [not_or] at hc
      exact .inl (exec_streamsMove hc.1 hc.2 law hstep i)

end Sys2Proof.Machine
end

section
/-!
The checks of an admin command in their order (R30), and what START, STOP, ABORT, RELEASE, CLEAR and QUERY do once they pass.
-/

namespace Sys2Proof.Machine

/-! ## Which row takes a record -/

/-- The code of a command (9.3). -/
def Command.code : Command → Byte
  | .configure => 0x10#8
  | .start => 0x11#8
  | .stop => 0x12#8
  | .abort => 0x13#8
  | .release => 0x14#8
  | .clearStream => 0x15#8
  | .clearLane => 0x16#8
  | .query => 0x17#8

/-- The row of a command with its action (log 4). -/
def Command.row (action : Nat) : Command → Instr
  | .configure => .configureStream
  | .start => .startStream
  | .stop => .stopStream
  | .abort => .abortStream
  | .release => .releaseStream
  | .clearStream => if action = 1 then .clearStreamSkipBand else .clearStreamResume
  | .clearLane => if action = 1 then .clearLaneSkip else .clearLaneResend
  | .query => .queryStream

theorem Command.ofCode_eq_some (b : Byte) (c : Command) : Command.ofCode b = some c ↔ b = c.code := by
  cases c <;> revert b <;> decide

theorem recCommand_eq_some {bs : List Byte} {c : Command} : recCommand bs = some c ↔ byteAt bs 0 = c.code :=
  Command.ofCode_eq_some _ _

theorem recAction_eq_one {bs : List Byte} : recAction bs = 1 ↔ byteAt bs 8 = 1#8 := by
  rw [recAction, ← BitVec.toNat_inj]
  rfl

/-- A record with a command's code goes to that command's row, any other to UNKNOWN_COMMAND (R30, log 4). -/
theorem rowTakes_eq (bs : List Byte) : rowTakes bs = (recCommand bs).elim .unknownCommand (Command.row (recAction bs)) := by
  cases hc : recCommand bs with
  | some c => 
    rw [recCommand_eq_some] at hc
    cases c <;> simp [rowTakes, hc, Command.code, Command.row, recAction_eq_one]
  | none =>
    have other (c : Command) : byteAt bs 0 ≠ c.code := fun h => by simp [recCommand_eq_some.2 h] at hc
    exact (if_neg (other .configure)).trans <| (if_neg (other .start)).trans <| (if_neg (other .stop)).trans <|
      (if_neg (other .abort)).trans <| (if_neg (other .release)).trans <| (if_neg (other .clearStream)).trans <|
      (if_neg (other .clearLane)).trans <| if_neg (other .query)

/-! ## The checks of R30 -/

/-- The form of every admin row: it carries out the command in the admin unit if it is one that the row takes (R29, log 2). -/
def State.commandRow (row : List Byte → Bool) (run : AdminCmd → State) (s : State) : Host.Outcome State Fault Refusal :=
  match s.commandFor row with
  | none => .next s
  | some a => .next (run a)

theorem State.HasCommand.commandRow {s : State} {bs : List Byte} {n : Nat} {r : Ring} (h : s.HasCommand bs n r)
    {row : List Byte → Bool} (hrow : row bs = true) (run : AdminCmd → State) :
    s.commandRow row run = .next (run { bytes := bs, index := n, past := r }) := by
  rw [State.commandRow, h.commandFor hrow]

theorem State.HasCommand.commandRow_other {s : State} {bs : List Byte} {n : Nat} {r : Ring} (h : s.HasCommand bs n r)
    {row : List Byte → Bool} (hrow : row bs = false) (run : AdminCmd → State) : s.commandRow row run = .next s := by
  obtain ⟨_, g, met, hadmin, hring, _⟩ := h
  simp [State.commandRow, State.commandFor, hadmin, hring, hrow]

/-- The field checks of a command beside its reserved bytes (R33, R43, R51, R52). -/
def Command.fieldsOk (bs : List Byte) : Command → Bool
  | .configure => configInRange (configRing bs) (configOf bs)
  | .clearStream => decide ((byteAt bs 8).toNat ≤ 1)
  | .clearLane => decide ((byteAt bs 8).toNat ≤ 1)
  | .query => aligned64 (le64 bs 8)
  | .start => true
  | .stop => true
  | .abort => true
  | .release => true

theorem fieldsGood_command {bs : List Byte} {c : Command} (hc : recCommand bs = some c) :
    fieldsGood bs = (commandReservedOk c bs && c.fieldsOk bs) := by
  have hcode : byteAt bs 0 = c.code := recCommand_eq_some.1 hc
  cases c <;> simp [fieldsGood, commandReservedOk, Command.fieldsOk, hcode, Command.code, Bool.and_assoc]

/-- ABORT_STREAM is taken in READY, RUNNING, DRAINING and HALTED (R46). -/
theorem takenFor_abort : takenFor Command.abort.code = fun st _ => st.abortable := by
  funext st l
  simp [takenFor, Command.code, Stream.abortable, Stream.emits, Stream.takesRecords, Bool.or_assoc]

/-- The row that takes the record runs the checks of its command: R30's states, the reserved bytes and the fields (9.3). -/
theorem State.HasCommand.runs {s : State} {bs : List Byte} {n : Nat} {r : Ring} (h : s.HasCommand bs n r) {c : Command}
    (hc : recCommand bs = some c) : ∃ effect, exec (rowTakes bs) s = .next
      (s.runCommand { bytes := bs, index := n, past := r } c (takenFor c.code) (c.fieldsOk bs) effect) := by
  have resume (ha : recAction bs ≠ 1) : decide ((byteAt bs 8).toNat ≤ 1) = (recAction bs == 0) := by
    rw [Bool.eq_iff_iff, decide_eq_true_eq, beq_iff_eq]
    rw [recAction] at ha ⊢
    omega
  have skip (ha : recAction bs = 1) : decide ((byteAt bs 8).toNat ≤ 1) = true :=
    decide_eq_true (Nat.le_of_eq ha)
  rw [rowTakes_eq, hc]
  cases c with
  | configure => exact ⟨_, h.commandRow (by simp [hc]) _⟩
  | start => exact ⟨_, h.commandRow (by simp [hc]) _⟩
  | stop => exact ⟨_, h.commandRow (by simp [hc]) _⟩
  | abort => rw [takenFor_abort]; exact ⟨_, h.commandRow (by simp [hc]) _⟩
  | release => exact ⟨_, h.commandRow (by simp [hc]) _⟩
  | clearStream =>
    rw [Option.elim, Command.row, Command.fieldsOk]
    by_cases ha : recAction bs = 1
    · rw [if_pos ha, skip ha]
      exact ⟨_, h.commandRow (by simp [hc, ha]) _⟩
    · rw [if_neg ha, resume ha]
      exact ⟨_, h.commandRow (by simp [hc, ha]) _⟩
  | clearLane =>
    rw [Option.elim, Command.row, Command.fieldsOk]
    by_cases ha : recAction bs = 1
    · rw [if_pos ha, skip ha]
      exact ⟨_, h.commandRow (by simp [hc, ha]) _⟩
    · rw [if_neg ha, resume ha]
      exact ⟨_, h.commandRow (by simp [hc, ha]) _⟩
  | query => exact ⟨_, h.commandRow (by simp [hc]) _⟩

/-- A stream number above 3 is refused with BAD_STREAM (R30). -/
theorem State.runCommand_badStream {s : State} {a : AdminCmd} (hi : 4 ≤ (byteAt a.bytes 1).toNat) (c : Command)
    (taken : Stream → Lane → Bool) (fieldsOk : Bool) (effect : StreamId → State → State) :
    s.runCommand a c taken fieldsOk effect = s.complete a .badStream 0#32 :=
  dif_neg (Nat.not_lt.2 hi)

/-- The stream's state is checked before the fields (R30). -/
theorem State.runCommand_refused {s : State} {i : StreamId} {a : AdminCmd} (hi : (byteAt a.bytes 1).toNat = i.val)
    {c : Command} {taken : Stream → Lane → Bool} {fieldsOk : Bool} (effect : StreamId → State → State)
    (h : taken (s.stream i) (s.lane i) = false ∨ (commandReservedOk c a.bytes && fieldsOk) = false) :
    s.runCommand a c taken fieldsOk effect =
      s.complete a (if taken (s.stream i) (s.lane i) = false then .state else .badField) 0#32 := by
  have hlt : recStream a.bytes < 4 := by rw [recStream, hi]; exact i.isLt
  have e : (⟨recStream a.bytes, hlt⟩ : StreamId) = i := Fin.ext hi
  simp only [State.runCommand, hlt, dite_true, e]
  split
  · rfl
  · next ht => rw [if_pos (h.resolve_left ht)]

/-- A row other than the one that takes the record changes nothing (log 2). -/
theorem State.HasCommand.other_row {s : State} {bs : List Byte} {n : Nat} {r : Ring} (h : s.HasCommand bs n r) {c : Instr}
    (hc : c ∈ [Instr.unknownCommand, .configureStream, .startStream, .stopStream, .abortStream, .releaseStream,
      .clearStreamResume, .clearStreamSkipBand, .clearLaneResend, .clearLaneSkip, .queryStream])
    (hne : c ≠ rowTakes bs) : exec c s = .next s := by
  rw [rowTakes_eq] at hne
  simp only [List.mem_cons, List.not_mem_nil, or_false] at hc
  rcases hc with rfl | rfl | rfl | rfl | rfl | rfl | rfl | rfl | rfl | rfl | rfl
  all_goals
    refine h.commandRow_other (Bool.eq_false_iff.2 fun hrow => hne ?_) _
    simp only [Bool.and_eq_true, beq_iff_eq, bne_iff_ne, Option.isNone_iff_eq_none] at hrow
    simp [hrow, Command.row]

/-- No command's row is UNKNOWN_COMMAND. -/
theorem rowTakes_eq_unknown {bs : List Byte} : rowTakes bs = .unknownCommand ↔ recCommand bs = none := by
  rw [rowTakes_eq]
  cases recCommand bs with
  | none => simp
  | some c => cases c <;> simp [Command.row] <;> split <;> simp

/-- The answer of the row that takes a known command, by the first check that fails (R30). -/
theorem State.HasCommand.badStream {s : State} {bs : List Byte} {n : Nat} {r : Ring} (h : s.HasCommand bs n r)
    (hrow : rowTakes bs ≠ .unknownCommand) (hi : 4 ≤ (byteAt bs 1).toNat) :
    exec (rowTakes bs) s = .next (s.answered bs n r .badStream 0#32) := by
  obtain ⟨c, hc⟩ := Option.ne_none_iff_exists'.1 (mt rowTakes_eq_unknown.2 hrow)
  obtain ⟨effect, run⟩ := h.runs hc
  rw [run, State.runCommand_badStream hi]
  rfl

theorem State.HasCommand.refused {s : State} {i : StreamId} {bs : List Byte} {n : Nat} {r : Ring} (h : s.HasCommand bs n r)
    (hrow : rowTakes bs ≠ .unknownCommand) (hi : (byteAt bs 1).toNat = i.val)
    (hbad : takenFor (byteAt bs 0) (s.stream i) (s.lane i) = false ∨ fieldsGood bs = false) :
    exec (rowTakes bs) s = .next (s.answered bs n r
      (if takenFor (byteAt bs 0) (s.stream i) (s.lane i) = false then .state else .badField) 0#32) := by
  obtain ⟨c, hc⟩ := Option.ne_none_iff_exists'.1 (mt rowTakes_eq_unknown.2 hrow)
  obtain ⟨effect, run⟩ := h.runs hc
  rw [recCommand_eq_some.1 hc, fieldsGood_command hc] at hbad
  rw [run, State.runCommand_refused hi effect hbad, recCommand_eq_some.1 hc]
  rfl

/-- Settles O33: the fields of each code, and R30's checks in their order, each refusal with its answer. -/
theorem refusedCommandsChangeNothingElse : Obligations.RefusedCommandsChangeNothingElse := by
  refine ⟨fun bs => ?_, fun s bs n r h => ⟨fun hrow => ?_, fun hrow hi => h.badStream hrow hi,
    fun i hrow hi => ⟨fun ht => ?_, fun ht hf => ?_⟩, fun c hc hne => h.other_row hc hne⟩⟩
  · intro code zero
    have zeros (lo n : Nat) : zeroBytes bs lo n = true ↔ zero lo (lo + n) := zeroBytes_iff
    refine ⟨fun h => ?_, fun h => ?_, fun h => ?_, fun h => ?_⟩
    · simp [fieldsGood, show (byteAt bs 0).toNat = 0x11 from h, zeros]
    · rcases h with h | h | h <;> simp [fieldsGood, show (byteAt bs 0).toNat = _ from h, zeros]
    · rcases h with h | h <;> simp [fieldsGood, show (byteAt bs 0).toNat = _ from h, zeros]
    · simp [fieldsGood, show (byteAt bs 0).toNat = 0x17 from h, zeros, aligned64]
  · exact h.commandRow (by simp [rowTakes_eq_unknown.1 hrow]) _
  · rw [h.refused hrow hi (.inl ht), if_pos ht]
  · rw [h.refused hrow hi (.inr hf), if_neg (by simp [ht])]

/-! ## A command that passes the checks -/

/-- A taken command has its row's effect on the stream it names (R29, R30). -/
theorem State.Taken.commandRow {s : State} {c : Command} {i : StreamId} {bs : List Byte} {n : Nat} {r : Ring}
    (h : s.Taken c.code i bs n r) {row : List Byte → Bool} {taken : Stream → Lane → Bool} {ok : AdminCmd → Bool}
    (hrow : recCommand bs = some c → row bs = true) (htaken : takenFor c.code = taken)
    (hok : c.fieldsOk bs = ok { bytes := bs, index := n, past := r }) (effect : AdminCmd → StreamId → State → State) :
    (s.commandRow row fun a => s.runCommand a c taken (ok a) (effect a)) =
      .next (effect { bytes := bs, index := n, past := r } i s) := by
  obtain ⟨hcmd, hkind, hi, hstate, hfields⟩ := h
  have hc : recCommand bs = some c := recCommand_eq_some.2 hkind
  rw [fieldsGood_command hc, hok] at hfields
  rw [hcmd.commandRow (hrow hc), State.runCommand_effect hi (htaken ▸ hstate) hfields]

theorem State.setLane_setLane (i : StreamId) (x y : Lane) (s : State) : (s.setLane i x).setLane i y = s.setLane i y := by
  simp [State.setLane]

theorem State.setStream_setStream (i : StreamId) (x y : Stream) (s : State) :
    (s.setStream i x).setStream i y = s.setStream i y := by
  simp [State.setStream]

/-- Settles O35: the stream's new numbering, and the lane's entry into SYNCING. -/
theorem startStreamRunsTheStreamAndItsLane : Obligations.StartStreamRunsTheStreamAndItsLane := by
  intro s i bs n r c h hc
  refine (State.Taken.commandRow (c := .start) h (fun hrec => by simp [hrec]) rfl rfl _).trans ?_
  simp only []
  rw [State.enterSyncing_of_cfg (c := c) (by simpa using hc), State.mapLane_eq_setLane, State.setLane_setLane,
    State.lane_setLane, if_pos rfl]
  rfl

/-- Settles O36: STOP_STREAM in each state that takes it. -/
theorem stopStreamStartsTheDrain : Obligations.StopStreamStartsTheDrain := by
  intro s i bs n r h owed
  have run := State.Taken.commandRow (c := .stop) h (row := fun bs => recCommand bs == some .stop) (ok := fun _ => true)
    (fun hrec => by simp [hrec]) rfl rfl
  refine ⟨fun hst => (run _).trans ?_, fun hst => (run _).trans ?_, fun hst => (run _).trans ?_⟩
  · rw [if_pos hst]; rfl
  · rw [if_neg (by simp [hst]), if_pos hst]; rfl
  · rw [if_neg (by simp [hst]), if_neg (by simp [hst])]; rfl

/-- Settles O38: RELEASE_STREAM's effect is the statement's. -/
theorem releaseStreamForgetsTheStream : Obligations.ReleaseStreamForgetsTheStream := by
  intro s i bs n r h
  exact State.Taken.commandRow (c := .release) h (fun hrec => by simp [hrec]) rfl rfl _

/-- A stream's own change before its latch is emptied is part of the stream with the latch EMPTY (R47, R61). -/
theorem State.emptyLatch_mapStream (i : StreamId) (f : Stream → Stream) (s : State) :
    (s.mapStream i f).emptyLatch i =
      { s.setStream i { f (s.stream i) with latch := .empty } with intake := s.intake.drop i } := by
  rw [State.emptyLatch, State.mapStream_eq_setStream, State.stream_mapStream_same, State.mapStream_eq_setStream,
    State.setStream_setStream]
  rfl

/-- Settles O37: ABORT_STREAM in READY, in the states that emit, and in the two that do not take it. -/
theorem abortStreamDiscardsOrBegins : Obligations.AbortStreamDiscardsOrBegins := by
  intro s i bs n r
  have run (h : s.Taken 0x13#8 i bs n r) := State.Taken.commandRow (c := .abort) h
    (row := fun bs => recCommand bs == some .abort) (ok := fun _ => true) (fun hrec => by simp [hrec]) takenFor_abort rfl
  refine ⟨fun g h hst hg => (run h _).trans ?_, fun h hst => (run h _).trans ?_, fun h hcode hi hst => ?_⟩
  · simp only [if_pos hst, hg, State.mapStream_eq_setStream]
    rfl
  · simp only [if_neg hst, State.emptyLatch_mapStream]
    rfl
  · have hrow : rowTakes bs = .abortStream := by simp [rowTakes, hcode]
    have hno : takenFor (byteAt bs 0) (s.stream i) (s.lane i) = false := by
      rcases hst with e | e <;> simp [takenFor, hcode, e]
    rw [← hrow, h.refused (by simp [hrow]) hi (.inl hno), if_pos hno]

/-- A stream that holds a slot finds no drain end (R39). -/
theorem State.lookForDrainEnd_of_held {s : State} {i : StreamId} {k : SlotId} {b : BandSlot} (hb : s.slot k = some b)
    (hi : b.stream = i) : s.lookForDrainEnd i = s := by
  refine if_neg fun hends => ?_
  obtain ⟨_, _, _, held, _⟩ := State.drainEnds_iff.1 hends
  exact held k b hb hi

/-- Settles O39: RESUME, and SKIP_BAND without and with an OPEN halted band, whose slot keeps the drain end away. -/
theorem clearStreamResumesAndSkips : Obligations.ClearStreamResumesAndSkips := by
  intro s i bs n r h back band resumed
  have skip (ha : byteAt bs 8 = 1#8) := State.Taken.commandRow (c := .clearStream) h
    (row := fun bs => recCommand bs == some .clearStream && recAction bs == 1) (ok := fun _ => true)
    (fun hrec => by simp [hrec, recAction, ha]) rfl (by simp [Command.fieldsOk, ha])
  refine ⟨fun ha => ?_, fun ha hno => (skip ha _).trans ?_, fun m k b ha hm hk hb => (skip ha _).trans ?_⟩
  · exact State.Taken.commandRow (c := .clearStream) h (ok := fun a => recAction a.bytes == 0)
      (fun hrec => by simp [hrec, recAction, ha]) rfl (by simp [Command.fieldsOk, recAction, ha]) _
  · cases hband : band with
    | none =>
      have hband : (s.stream i).halt.bind (fun h => h.band) = none := hband
      simp only [hband]
      rfl
    | some m =>
      have hopen := hno m hband
      have hband : (s.stream i).halt.bind (fun h => h.band) = some m := hband
      simp only [hband, hopen]
      rfl
  · have hband : (s.stream i).halt.bind (fun h => h.band) = some m := hm
    obtain ⟨⟨c, hc, hi, _⟩, _⟩ := State.openSlot_eq_some.1 hk
    obtain rfl : b = c := Option.some.inj (hb.symm.trans hc)
    let b' : BandSlot := { b with st := .closed, blank := true, notify := false, tag := none, pages := [] }
    have skipped : ((s.mapStream i Stream.resumed).discardSlot k).mapStream i (fun st => { st with skip := some m }) =
        { s.setStream i { back with skip := some m } with
          bands := { s.bands with free := s.bands.free ++ b.pages, slots := putAt s.bands.slots k (some b') } } := by
      simp only [State.discardSlot, State.mapStream_slot, hb]
      rw [State.mapStream_eq_setStream, State.mapStream_eq_setStream]
      simp only [State.setStream, State.stream, putAt_get_same, putAt_putAt]
      rfl
    simp only [hband, hk]
    rw [State.lookForDrainEnd_of_held (k := k) (b := b') (by simp [State.discardSlot_slot, hb, b']) hi, skipped]
    rfl

end Sys2Proof.Machine
end

section
/-!
QUERY_STREAM (R52): the snapshot's fields at their places (9.6, R176), and its write before the completion (R170).
-/

namespace Sys2Proof.Machine

/-! ## Fields of a written structure -/

/-- A number from its high and low parts. -/
theorem ofNat_append (m n x : Nat) : BitVec.ofNat m (x >>> n) ++ BitVec.ofNat n x = BitVec.ofNat (m + n) x := by
  refine BitVec.eq_of_getLsbD_eq fun k hk => ?_
  rw [BitVec.getLsbD_append, BitVec.getLsbD_ofNat, BitVec.getLsbD_ofNat, BitVec.getLsbD_ofNat, Nat.testBit_shiftRight]
  by_cases h : k < n
  · simp [h, hk]
  · have hm : k - n < m := by omega
    simp [h, hk, hm, Nat.add_sub_cancel' (Nat.le_of_not_lt h)]

theorem byteAt_append (l r : List Byte) (k : Nat) :
    byteAt (l ++ r) k = if k < l.length then byteAt l k else byteAt r (k - l.length) := by
  unfold byteAt
  split
  · next h => exact List.getD_append _ _ _ _ h
  · next h => exact List.getD_append_right _ _ _ _ (Nat.le_of_not_lt h)

@[simp] theorem leBytes_length (n x : Nat) : (leBytes n x).length = n := by
  simp [leBytes]

/-- A 16-bit number reads back from its bytes (R173). -/
theorem leBytes_two (x : Nat) : byteAt (leBytes 2 x) 1 ++ byteAt (leBytes 2 x) 0 = BitVec.ofNat 16 x :=
  ofNat_append 8 8 x

/-- A 32-bit number reads back from its bytes (R173). -/
theorem leBytes_four (x : Nat) : (byteAt (leBytes 4 x) 3 ++ byteAt (leBytes 4 x) 2) ++
    (byteAt (leBytes 4 x) 1 ++ byteAt (leBytes 4 x) 0) = BitVec.ofNat 32 x := by
  have low : byteAt (leBytes 4 x) 1 ++ byteAt (leBytes 4 x) 0 = BitVec.ofNat 16 x := ofNat_append 8 8 x
  have high : byteAt (leBytes 4 x) 3 ++ byteAt (leBytes 4 x) 2 = BitVec.ofNat 16 (x >>> 16) := by
    rw [← ofNat_append 8 8, ← Nat.shiftRight_add]
    rfl
  rw [low, high]
  exact ofNat_append 16 16 x

/-- A band field as it is read back: "none" is all ones (9.6). -/
theorem ofNat_bandExtra (b : Option Band) : BitVec.ofNat 32 (bandExtra b).toNat =
    match b with
    | none => 0xFFFFFFFF#32
    | some m => m.setWidth 32 := by
  cases b with
  | none => rfl
  | some m => rw [bandExtra, BitVec.ofNat_toNat, BitVec.setWidth_eq]

/-! ## QUERY_STREAM -/

theorem commandStream_eq {i : StreamId} {bs : List Byte} (hi : (byteAt bs 1).toNat = i.val) : commandStream bs = some i := by
  have hlt : (byteAt bs 1).toNat < 4 := hi ▸ i.isLt
  rw [commandStream, dif_pos hlt]
  exact congrArg some (Fin.ext hi)

theorem State.snapshot_length (s : State) (i : StreamId) : (s.snapshot i).length = 64 := by
  simp [State.snapshot]

/-- The snapshot's reserved bytes are 0 (9.6). -/
theorem State.snapshot_reserved (s : State) (i : StreamId) (k : Nat)
    (h : k = 6 ∨ k = 7 ∨ k = 23 ∨ k = 30 ∨ k = 31 ∨ (38 ≤ k ∧ k < 64)) : byteAt (s.snapshot i) k = 0#8 := by
  rcases h with rfl | rfl | rfl | rfl | rfl | ⟨hk, _⟩
  case inr.inr.inr.inr.inr =>
    rw [State.snapshot, byteAt, List.getD_append_right _ _ _ _ (by simpa using hk), List.getD_eq_getElem?_getD,
      List.getElem?_replicate]
    split <;> rfl
  all_goals
    simp only [State.snapshot, byteAt_append, List.length_append, leBytes_length, List.length_cons, List.length_nil,
      Nat.reduceAdd, Nat.reduceLT, Nat.reduceSub, if_true, if_false]
    rfl

/-- Settles O41: the write and its completion, and every field of the snapshot at its place. -/
theorem queryStreamWritesTheSnapshot : Obligations.QueryStreamWritesTheSnapshot := by
  intro s i bs n r h snap
  have hissue : s.port.canIssue = (s.port.busMaster && s.port.linkUp) := rfl
  have run := State.Taken.commandRow (c := .query) h (row := fun bs => recCommand bs == some .query)
    (ok := fun a => aligned64 (le64 a.bytes 8)) (fun hrec => by simp [hrec]) rfl rfl
  refine ⟨fun hb hl => (run _).trans ?_, fun hno => (run _).trans ?_, ?_, fun hst => if_pos hst, fun g hst hg => ?_⟩
  · rw [if_pos (by rw [hissue, hb, hl]; rfl)]
    rfl
  · rw [if_neg (by rw [hissue]; rcases hno with e | e <;> simp [e]), ← commandStream_eq h.stream]
    rfl
  · by_cases hst : (s.stream i).st = .unconfigured
    · rw [show snap = unconfiguredSnapshot from if_pos hst]
      rfl
    · rw [show snap = s.snapshot i from if_neg hst, State.snapshot_length]
  · have hsnap : snap = s.snapshot i := if_neg hst
    rw [hsnap]
    refine ⟨s.snapshot_reserved i, ?_⟩
    simp only [State.snapshot, le16, le32, byteAt_append, List.length_append, leBytes_length, List.length_cons,
      List.length_nil, Nat.reduceAdd, Nat.reduceLT, Nat.reduceSub, if_true, if_false, leBytes_two]
    refine ⟨?_, ?_, ?_, ?_, ?_, ?_, ?_, BitVec.ofNat_toNat _ _, BitVec.ofNat_toNat _ _, rfl, rfl, rfl, ?_, ?_, ?_, rfl,
      trivial, trivial, trivial⟩
    · show (s.stream i).st.code = _
      cases (s.stream i).st <;> rfl
    · show returnCode (s.stream i).ret = _
      rcases (s.stream i).ret with _ | _ | _ <;> rfl
    · show BitVec.ofNat 8 (s.stream i).dstop.isSome.toNat = _
      cases (s.stream i).dstop <;> rfl
    · show ((s.stream i).halt.elim 0#8 fun h => h.reason.code) = _
      rcases (s.stream i).halt with _ | ⟨_ | _ | _, _, _⟩ <;> rfl
    · cases (s.stream i).halt <;> rfl
    · exact (leBytes_four _).trans (ofNat_bandExtra _)
    · exact (leBytes_four _).trans (ofNat_bandExtra _)
    · rw [hg]; rfl
    · rw [hg]; rfl
    · show (s.lane i).state.code = _
      cases (s.lane i).state <;> rfl

end Sys2Proof.Machine
end

section
/-!
The two fetches (R29, R59) and the end of an admin read (R29, R143, R171, R172).
-/

namespace Sys2Proof.Machine

/-! ## The fetches -/

/-- A read that is no context read is issued under the read limit, or waits behind the others (R168, log 8). -/
theorem Port.askRead_eq {who : Requester} (h : who ≠ .attach) (p : Port) (addr : BitVec 64) (len : Nat) :
    p.askRead who addr len =
      if p.busMaster = true ∧ p.linkUp = true then
        { p with
          outstanding := p.outstanding ++ [{ id := p.nextId, who := who, addr := addr, len := len
                                             limit := p.readLimit.getD 0, got := List.replicate len none, lost := false }]
          nextId := p.nextId + 1
          sent := p.sent ++ [.readRequest p.nextId addr len] }
      else { p with waiting := p.waiting ++ [.read who addr len] } := by
  simp only [Port.askRead, Port.canIssue, Bool.and_eq_true, Port.issueRead, if_neg h]

/-- The fetch of the record at the head of the chosen stream's ring (R59, R139). -/
theorem execRecordFetch_chosen {s : State} {i : StreamId} {r : Ring} (hc : s.fetchChoice = some i)
    (hr : (s.stream i).ring = some r) : execRecordFetch s = .next
      { s.setStream i { s.stream i with latch := .fetching r.head } with
        intake := { s.intake with fetchRead := some { stream := i, index := r.head, dropped := false }, fetchNext := i + 1 }
        port := s.port.askRead .fetch (r.entryAddr r.head) 64 } := by
  unfold execRecordFetch
  rw [hc]
  simp only
  split
  · next hnone => rw [hr] at hnone; cases hnone
  · next r' hr' =>
    obtain rfl : r = r' := Option.some.inj (hr.symm.trans hr')
    rfl

/-- Settles O32: the admin fetch, the record fetch, and the read each asks for. -/
theorem fetchesReadTheRecordAtTheHead : Obligations.FetchesReadTheRecordAtTheHead := by
  intro s i r
  refine ⟨fun hr hpart hadmin hne => ?_, fun hr hno => ?_, fun hc hr => ?_, fun hc => ?_,
    fun p who addr len hwho => Port.askRead_eq hwho p addr len⟩
  · simp only [exec, execAdminFetch, hr]
    exact if_pos ⟨hpart, hadmin, hne⟩
  · simp only [exec, execAdminFetch, hr]
    exact if_neg fun ⟨_, hadmin, hne⟩ => hno.elim (fun h => h hadmin) hne
  · exact execRecordFetch_chosen hc hr
  · simp only [exec, execRecordFetch, hc]

/-! ## The end of a read -/

/-- In FATAL and DETACHING a read that finishes reaches no unit: the fetch arbiter and, in DETACHING, a FETCHING admin unit
drop it (R32, R92, R93, R172). -/
theorem State.readEnds_frozen {s : State} (h : s.port.part = .fatal ∨ s.port.part = .detaching) (q : ReadReq)
    (res : Option (List Byte)) : s.readEnds q res = { s with
      port := { s.port with outstanding := s.port.outstanding.filter fun x => x.id != q.id }
      admin := if q.who = .admin ∧ s.port.part = .detaching ∧ s.admin = .fetching then .idle else s.admin
      intake := if q.who = .fetch then { s.intake with fetchRead := none } else s.intake } := by
  have attached : s.port.part ≠ .attached := by rcases h with h | h <;> simp [h]
  unfold State.readEnds
  cases hwho : q.who with
  | attach => rcases h with h | h <;> simp [h]
  | admin =>
    cases s.admin with
    | fetching => rcases h with h | h <;> simp [State.adminReadEnds, h]
    | idle | fetched | awaiting | posting => simp [State.adminReadEnds]
  | fetch =>
    cases hread : s.intake.fetchRead with
    | none =>
      have same : ({ s.intake with fetchRead := none } : Intake) = s.intake := by rw [← hread]
      simp [State.recordReadEnds, hread, same]
    | some f => simp [State.recordReadEnds, hread, attached]
  | raster off => cases s.raster <;> simp [State.sourceReadEnds, attached]

/-- What finishes an outstanding read that the link did not lose: its limit's expiry, an error status, or its last bytes
(R169). -/
theorem exec_finishes {s : State} {id off : Nat} {data : List Byte} {good : Bool} {q : ReadReq} {c : Instr}
    (hq : s.port.request id = some q) (hc : c = .readLimitExpiry id ∨
      (c = .readCompletion id off data good ∧ q.lost = false ∧ (good = true → (q.fill off data).whole ≠ none))) :
    ∃ res, exec c s = .next (s.readEnds q res) := by
  rcases hc with rfl | ⟨rfl, hlost, hwhole⟩
  · exact ⟨none, by simp only [exec, execReadLimitExpiry, hq]⟩
  · cases good with
    | false => exact ⟨none, by simp [exec, execReadCompletion, State.takeCompletion, hq, hlost]⟩
    | true =>
      obtain ⟨bs, hbs⟩ := Option.ne_none_iff_exists'.1 (hwhole rfl)
      exact ⟨some bs, by simp [exec, execReadCompletion, State.takeCompletion, hq, hlost, hbs]⟩

/-- What setting causes leaves of the port, and what it can add to what waits (R155, R156, R170). -/
theorem Port.raise_frame (c : Causes) (p : Port) :
    (p.raise c).part = p.part ∧ (p.raise c).fatalCode = p.fatalCode ∧ (p.raise c).outstanding = p.outstanding ∧
      (p.raise c).cause = p.cause.union c ∧ ∀ a ∈ (p.raise c).waiting, a ∈ p.waiting ∨ a = .message := by
  simp only [Port.raise, Port.setEvents, Port.askMessage]
  split_ifs <;> simp +contextual

/-- A part that becomes FATAL: its code and cause, no read and no entry left waiting, the lanes OFFLINE (R152, R168, R172). -/
theorem State.becomeFatal_port (code : FatalCode) (s : State) :
    (s.becomeFatal code).port.part = .fatal ∧ (s.becomeFatal code).port.fatalCode = code ∧
      (s.becomeFatal code).port.cause.fatal = true ∧ (s.becomeFatal code).port.outstanding = s.port.outstanding ∧
      ∀ a ∈ (s.becomeFatal code).port.waiting, (∃ x y, a = .snapshot x y) ∨ a = .message := by
  unfold State.becomeFatal
  obtain ⟨hpart, hcode, hout, hcause, hwait⟩ := Port.raise_frame .ofFatal
    { s.port with part := .fatal, fatalCode := code, waiting := s.port.waiting.filter LinkAsk.survivesFatal }
  refine ⟨hpart, hcode, (congrArg Causes.fatal hcause).trans (Bool.or_true _), hout, fun a ha => ?_⟩
  rcases hwait a ha with ha | ha
  · have survives := (List.mem_filter.1 ha).2
    cases a with
    | read | entry => cases survives
    | snapshot x y => exact .inl ⟨x, y, rfl⟩
    | message => exact .inr rfl
  · exact .inr ha

theorem State.becomeFatal_lane (code : FatalCode) (s : State) (i : StreamId) :
    (s.becomeFatal code).lane i = (s.lane i).goOffline := by
  simp [State.becomeFatal, State.lane]

/-- The part with a request that has finished no longer outstanding (R169). -/
def State.withoutRead (q : ReadReq) (s : State) : State :=
  { s with port := { s.port with outstanding := s.port.outstanding.filter fun x => x.id != q.id } }

/-- An admin fetch that finishes in an ATTACHED part: with bytes the command is taken or discarded, else the part is FATAL
(R143, R171). -/
theorem State.readEnds_adminFetch {s : State} {q : ReadReq} (hwho : q.who = .admin) (hpart : s.port.part = .attached)
    (hadmin : s.admin = .fetching) (res : Option (List Byte)) : s.readEnds q res =
      res.elim ((s.withoutRead q).becomeFatal .adminReadFault) fun bs => (s.withoutRead q).takeCommand bs := by
  cases res <;> simp [State.readEnds, State.adminReadEnds, State.withoutRead, hwho, hadmin, hpart]

/-- Settles O29: a read in FATAL or DETACHING, and an admin fetch in ATTACHED with its bytes and with a fault. -/
theorem adminReadsGiveTheCommandOrFatal : Obligations.AdminReadsGiveTheCommandOrFatal := by
  refine ⟨fun s id off data good q hq => ⟨fun hlost => ?_, fun hpart c hc => ?_⟩, ?_⟩
  · simp [exec, execReadCompletion, State.takeCompletion, hq, hlost]
  · obtain ⟨res, finishes⟩ := exec_finishes hq hc
    rw [finishes, State.readEnds_frozen hpart]
  · intro s id off data q g hq hlost hwho hpart hadmin hg rest
    refine ⟨fun bs hbs => ?_, fun c hc => ?_⟩
    · have finishes : exec (.readCompletion id off data true) s = .next (s.readEnds q (some bs)) := by
        simp [exec, execReadCompletion, State.takeCompletion, hq, hlost, hbs]
      rw [finishes, State.readEnds_adminFetch hwho hpart hadmin]
      have ring : (s.withoutRead q).ring.admin = some g := hg
      simp only [Option.elim, State.takeCommand, ring, Ring.isEmpty, beq_iff_eq]
      split <;> rfl
    · have finishes : exec c s = .next (s.readEnds q none) := by
        rcases hc with rfl | rfl
        · simp [exec, execReadCompletion, State.takeCompletion, hq, hlost]
        · simp only [exec, execReadLimitExpiry, hq]
      rw [finishes, State.readEnds_adminFetch hwho hpart hadmin]
      obtain ⟨fatal, code, cause, out, waits⟩ := State.becomeFatal_port .adminReadFault (s.withoutRead q)
      refine ⟨_, rfl, fatal, code, cause, out, waits, rfl, rfl, rfl, rfl, rfl, rfl, rfl, fun i => ?_⟩
      have lane := State.becomeFatal_lane .adminReadFault (s.withoutRead q) i
      exact ⟨(congrArg Lane.state lane).trans rfl, (congrArg Lane.latch lane).trans rfl⟩

end Sys2Proof.Machine
end

section
/-!
Hand-overs that fail or are skipped: a FAULTED latch, a failed verdict, the skip band, a failed band check (R66 to R69).
-/

namespace Sys2Proof.Machine

/-! ## Halts and failed records -/

/-- A halt claim for a stream that takes records is taken (R41). -/
theorem State.halt_of_takesRecords {s : State} {i : StreamId} (h : (s.stream i).takesRecords = true) (info : HaltInfo) :
    s.halt i info = { s.setStream i ((s.stream i).haltedBy info) with intake := s.intake.drop i } := by
  have hst : (s.stream i).st = .running ∨ (s.stream i).st = .draining := by simpa [Stream.takesRecords] using h
  rcases hst with hst | hst <;>
    simp [State.halt, hst, State.emptyLatch_mapStream, Stream.haltedBy]

/-- A record that fails is consumed and halts its stream, with its entry held (R67, R69). -/
theorem State.failRecord_eq_failed {s : State} {i : StreamId} {n : Nat} {bs : List Byte} {v : Verdict} {c : StreamCfg}
    {r : Ring} (takes : (s.stream i).takesRecords = true) (hr : (s.stream i).ring = some r) (st : Status)
    (band : Option Band) : s.failRecord (handOf i n bs v c r) st band = s.failed i n bs r st band := by
  have same : (s.handed i r (s.stream i)).stream i = { s.stream i with latch := .empty, ring := some r.consumed } := by
    simp [State.handed, State.stream, State.setStream]
  have consumed : s.consumeRecord (handOf i n bs v c r).stream = s.handed i r (s.stream i) :=
    State.consumeRecord_eq_handed hr
  have takes' : ((s.handed i r (s.stream i)).stream (handOf i n bs v c r).stream).takesRecords = true := by
    simpa [handOf, same, Stream.takesRecords] using takes
  unfold State.failRecord
  rw [consumed, State.halt_of_takesRecords takes']
  simp only [handOf, same]
  simp [State.failed, State.holding, State.holdEntry, State.handed, State.setStream, Stream.haltedBy, Hand.entry,
    recordEntry, handedEntry, recTag, recCode]

/-- The chosen record is of a stream that takes records (R63). -/
theorem State.Chosen.takesRecords {s : State} {i : StreamId} {n : Nat} {bs : List Byte} {v : Verdict} {c : StreamCfg}
    {r : Ring} (h : s.Chosen i n bs v c r) : (s.stream i).takesRecords = true :=
  State.handOverChoice_takesRecords h.choice

/-- A chosen record that fails (R67, R69). -/
theorem State.Chosen.fails {s : State} {i : StreamId} {n : Nat} {bs : List Byte} {v : Verdict} {c : StreamCfg} {r : Ring}
    (h : s.Chosen i n bs v c r) (st : Status) (band : Option Band) :
    s.failRecord (handOf i n bs v c r) st band = s.failed i n bs r st band :=
  State.failRecord_eq_failed h.takesRecords h.ring st band

/-! ## Verdicts (R66, R67) -/

/-- The row of a record kind is that kind's hand-over (R65). -/
theorem exec_kindRow (k : RecKind) :
    ∃ effect : Hand → State → State, ∀ s, exec (kindRow k) s = .next (s.handOver k effect) := by
  cases k <;> exact ⟨_, fun _ => rfl⟩

/-- The stages of a chosen record of a known kind: verdict, skip band, effect (R65). -/
theorem State.Chosen.handOver {s : State} {i : StreamId} {n : Nat} {k : RecKind} {bs : List Byte} {v : Verdict}
    {c : StreamCfg} {r : Ring} (h : s.Chosen i n bs v c r) (hv : v ≠ .badKind) (hk : RecKind.ofCode (byteAt bs 0) = some k)
    (effect : Hand → State → State) : s.handOver k effect =
      if v = .badField then s.failRecord (handOf i n bs v c r) .badField (bandNamed k bs)
      else if s.skips i k bs then s.skipRecord (handOf i n bs v c r) k
      else effect (handOf i n bs v c r) s := by
  have hand := h.handFor (row := fun v bs => v != .badKind && RecKind.ofCode (recCode bs) == some k)
    (by simp [recCode, hk, hv])
  unfold State.handOver
  simp only [hand]
  rfl

/-- A record of a known kind with a bad field fails before all other checks (R65, R67). -/
theorem State.Chosen.handOver_badField {s : State} {i : StreamId} {n : Nat} {k : RecKind} {bs : List Byte} {c : StreamCfg}
    {r : Ring} (h : s.Chosen i n bs .badField c r) (hk : RecKind.ofCode (byteAt bs 0) = some k)
    (effect : Hand → State → State) : s.handOver k effect = s.failed i n bs r .badField (bandNamed k bs) := by
  rw [h.handOver Verdict.noConfusion hk, if_pos rfl, h.fails]

/-- The band that a record's kind names (R53, R67). -/
theorem bandNamed_eq (k : RecKind) (bs : List Byte) : bandNamed k bs = if k = .mark then none else some (le16 bs 2) := by
  cases k <;> rfl

/-- A chosen FAULTED latch halts its stream (R66). -/
theorem State.ringFault_eq {s : State} {i : StreamId} (takes : (s.stream i).takesRecords = true) (n : Nat) :
    s.ringFault i n = State.holding i
      { tag := 0#32, source := BitVec.ofNat 8 (i.val + 1), kind := 0xFF#8, status := .ringFault, empty := false
        index := BitVec.ofNat 16 n, head := BitVec.ofNat 16 n, extra := 0xFFFFFFFF#32 }
      { s.setStream i ((s.stream i).haltedBy { reason := .ringFault, index := n, band := none }) with
        intake := { s.intake with handNext := i + 1 }.drop i } := by
  have takes' : (({ s with intake := s.intake.turn i } : State).stream i).takesRecords = true := takes
  unfold State.ringFault
  rw [State.halt_of_takesRecords takes']
  rfl

/-- Settles O42: a FAULTED latch, an unknown kind, and a bad field of each known kind. -/
theorem faultsAndBadRecordsHaltTheStream : Obligations.FaultsAndBadRecordsHaltTheStream := by
  refine fun s i n => ⟨fun hchoice hlatch => ?_, fun bs c r => ⟨fun h => ?_, fun k h hk => ?_⟩⟩
  · simp only [exec, execRingFault, hchoice, hlatch, State.ringFault_eq (State.handOverChoice_takesRecords hchoice)]
  · simp only [exec, execUnknownRecordKind, h.handFor (row := fun v _ => v == .badKind) rfl, h.fails]
  · obtain ⟨effect, row⟩ := exec_kindRow k
    rw [row, h.handOver_badField hk, bandNamed_eq]

/-! ## The skip band (R68) -/

/-- A good record that names the skip band is skipped (R65, R68). -/
theorem State.Chosen.handOver_skips {s : State} {i : StreamId} {n : Nat} {k : RecKind} {bs : List Byte} {c : StreamCfg}
    {r : Ring} (h : s.Chosen i n bs .good c r) (hk : RecKind.ofCode (byteAt bs 0) = some k) (hskip : s.skips i k bs = true)
    (effect : Hand → State → State) : s.handOver k effect = s.skipRecord (handOf i n bs .good c r) k := by
  rw [h.handOver Verdict.noConfusion hk, if_neg Verdict.noConfusion, if_pos hskip]

/-- A skipped record: consumed, the skip ended by the kinds that end a band, its entry held if it is owed one (R68). -/
theorem State.skipRecord_eq {s : State} {i : StreamId} {n : Nat} {k : RecKind} {bs : List Byte} {v : Verdict}
    {c : StreamCfg} {r : Ring} (hr : (s.stream i).ring = some r) :
    s.skipRecord (handOf i n bs v c r) k =
      let t := s.handed i r { s.stream i with skip := if k.endsBand then none else (s.stream i).skip }
      if k.endsBand || (byteAt bs 1).getLsbD 0 then
        t.holding i (handedEntry i n bs r .skipped (bandExtra (bandNamed k bs)))
      else t := by
  have ring : ((s.mapStream i fun st => { st with skip := if k.endsBand then none else st.skip }).stream i).ring =
      some r := by simpa using hr
  refine (State.finishRecord_eq ring _ .skipped _).trans ?_
  rw [State.handed_mapStream, State.stream_mapStream_same]
  rfl

/-- Whether a record of a kind that names a band names the skip band (R68). -/
theorem State.skips_of_named {s : State} {i : StreamId} {k : RecKind} {bs : List Byte} {band : Band} (hk : k ≠ .mark)
    (hskip : (s.stream i).skip = some band) (hnames : le16 bs 2 = band ∨ (k = .copyRect ∧ le16 bs 22 = band)) :
    s.skips i k bs = true := by
  rcases hnames with e | ⟨rfl, e⟩
  · simp [State.skips, hskip, namesBand, bandNamed_eq, hk, e]
  · simp [State.skips, hskip, namesBand, recSourceBand, e]

/-- A failed record keeps its stream's skip band (R41, R67). -/
theorem State.failed_skip (i : StreamId) (n : Nat) (bs : List Byte) (r : Ring) (st : Status) (band : Option Band)
    (s : State) : ((s.failed i n bs r st band).stream i).skip = (s.stream i).skip := by
  simp [State.failed, State.holding, State.stream, State.handed, State.setStream, Stream.haltedBy]

/-- Settles O44: the kinds that end the skip, the other kinds with and without NOTIFY, and a malformed record. -/
theorem skippedRecordsAreConsumed : Obligations.SkippedRecordsAreConsumed := by
  intro s i n k bs c r band hk hmark hskip hnames entry
  obtain ⟨effect, row⟩ := exec_kindRow k
  have named : bandNamed k bs = some (le16 bs 2) := by rw [bandNamed_eq, if_neg hmark]
  refine ⟨fun h => ?_, fun h => ?_⟩
  · have skips := h.handOver_skips hk (State.skips_of_named hmark hskip hnames) effect
    have skipped := (row s).trans (congrArg Host.Outcome.next (skips.trans (State.skipRecord_eq h.ring)))
    rw [named] at skipped
    refine ⟨fun hends => ?_, fun hclose hdiscard => ?_⟩
    · have ends : k.endsBand = true := by simpa [RecKind.endsBand] using hends
      simp only [ends, Bool.true_or, if_true] at skipped
      exact skipped
    · have stays : k.endsBand = false := by simp [RecKind.endsBand, hclose, hdiscard]
      simp only [stays, Bool.false_or, Bool.false_eq_true, if_false] at skipped
      exact ⟨fun hn => skipped.trans (congrArg _ (if_pos hn)),
        fun hn => skipped.trans (congrArg _ (if_neg (Bool.eq_false_iff.1 hn)))⟩
  · refine ⟨_, row s, ?_, ?_⟩
    · rw [h.handOver_badField hk, named]
    · rw [h.handOver_badField hk, State.failed_skip, hskip]

/-! ## The band checks (R69) -/

/-- No slot is found OPEN when the stream's band is in none (R69). -/
theorem State.openSlot_eq_none {s : State} {i : StreamId} {m : Band}
    (h : ∀ j b, s.slot j = some b → b.stream = i → b.band = m → b.st ≠ .opened) : s.openSlot i m = none :=
  State.findSlot_none.2 fun j b hb => by
    simp only [Bool.eq_false_iff, ne_eq, Bool.and_eq_true, beq_iff_eq]
    rintro ⟨⟨hi, hm⟩, hst⟩
    exact h j b hb hi hm hst

/-- A good record whose band is not OPEN fails (R69). -/
theorem State.Good.onOpen_none {s : State} {i : StreamId} {n : Nat} {k : RecKind} {bs : List Byte} {c : StreamCfg}
    {r : Ring} (h : s.Good i n k bs c r) (hnone : s.openSlot i (le16 bs 2) = none) (effect : SlotId → State → State) :
    s.onOpen (handOf i n bs .good c r) effect = s.failed i n bs r .bandNotOpen (some (le16 bs 2)) := by
  have none' : s.openSlot (handOf i n bs .good c r).stream (recBand (handOf i n bs .good c r).bytes) = none := hnone
  unfold State.onOpen
  rw [none']
  exact h.toChosen.fails _ _

/-- The rows whose record names a band that must be OPEN act on its slot (R69). -/
theorem exec_kindRow_onOpen {k : RecKind} (hmark : k ≠ .mark) (hopen : k ≠ .openBand) :
    ∃ effect : Hand → SlotId → State → State,
      ∀ s, exec (kindRow k) s = .next (s.handOver k fun h s => s.onOpen h (effect h)) := by
  cases k with
  | mark => exact absurd rfl hmark
  | openBand => exact absurd rfl hopen
  | _ => exact ⟨_, fun _ => rfl⟩

/-- Settles O43: the two checks of an OPEN_BAND, the band of the other kinds, and the source band of a COPY_RECT. -/
theorem bandChecksHaltTheStream : Obligations.BandChecksHaltTheStream := by
  intro s i n bs c r fails
  refine ⟨fun h => ⟨fun hband => ?_, fun hband hwindow => ?_⟩, fun k hk h hnot => ?_, fun h hnot => ?_⟩
  · simp only [exec, execOpenBand, h.handOver]
    rw [if_pos (by exact hband), h.toChosen.fails]
    rfl
  · simp only [exec, execOpenBand, h.handOver]
    rw [if_neg (by simpa [handOf, recBand] using hband), if_pos (by exact hwindow), h.toChosen.fails]
    rfl
  · obtain ⟨effect, row⟩ := exec_kindRow_onOpen (k := k) (by rintro rfl; simp at hk) (by rintro rfl; simp at hk)
    rw [row, h.handOver, h.onOpen_none (State.openSlot_eq_none hnot)]
  · simp only [exec, execCopyRect, h.handOver]
    cases hdest : s.openSlot i (le16 bs 2) with
    | none => rw [h.onOpen_none hdest]
    | some k =>
      have source : s.openSlot (handOf i n bs .good c r).stream (recSourceBand (handOf i n bs .good c r).bytes) = none :=
        State.openSlot_eq_none hnot
      rw [State.onOpen_of_openSlot hdest, source]
      exact congrArg Host.Outcome.next (h.toChosen.fails _ _)

end Sys2Proof.Machine
end

section
/-!
Drawing records in the words of the statements: the op in flight, its end with an empty area, and the pieces in which a range
is read (R70, R76, R80, R82, R83, R86, R168).
-/

namespace Sys2Proof.Machine

/-! ## The op of a drawing record -/

theorem Area.rows_pos {a : Area} (h : a.isEmpty = false) : 0 < a.rows := by
  simp only [Area.isEmpty, Bool.or_eq_false_iff, decide_eq_false_iff_not] at h
  simp only [Area.rows]
  omega

/-- An op with an empty area ends at once (R80). -/
theorem State.opGoesOn_empty {s : State} {op : Op} (h : op.area.isEmpty = true) : s.opGoesOn op = s.opEnds op := by
  simp [State.opGoesOn, h]

/-- The first move of an op with dots to write: a PLACE asks for its first source row, the others await their row write. -/
def State.opBegins (op : Op) (s : State) : State :=
  match op.kind with
  | .place rect src pitch ds _ _ => s.askSourceRow op rect.x rect.y src pitch ds
  | .initialFill _ => { s with raster := .executing op }
  | .fillRect _ _ _ => { s with raster := .executing op }
  | .copyRect _ _ _ _ _ => { s with raster := .executing op }

/-- An op with dots to write that has just begun (R78, R83). -/
theorem State.opGoesOn_begun {s : State} {op : Op} (h : op.area.isEmpty = false) (hrows : op.rowsDone = 0) :
    s.opGoesOn op = s.opBegins op := by
  have rows := Area.rows_pos h
  have goes : (op.area.isEmpty || decide (op.area.rows ≤ op.rowsDone)) = false := by simp [h, hrows]; omega
  unfold State.opGoesOn State.opBegins
  rw [goes]
  cases op.kind <;> rfl

/-- The op of the record `bs` of stream `i` ends with an empty area: its entry, if NOTIFY is set, with EMPTY (R80, R88). -/
def State.emptyEnds (i : StreamId) (n : Nat) (bs : List Byte) (r : Ring) (op : Op) (s : State) : State :=
  let e : Entry := { handedEntry i n bs r .ok ((le16 bs 2).setWidth 32) with empty := true }
  if (byteAt bs 1).getLsbD 0 then State.admitAsMade .raster { s with raster := .posting op e } else { s with raster := .free }

/-- The end of a record's op with an empty area, for a stream that is not ABORTING (R88, R91). -/
theorem State.opEnds_handedOp {s : State} {i : StreamId} {n : Nat} {bs : List Byte} {c : StreamCfg} {r : Ring} {kind : OpKind}
    {slot : SlotId} {area : Area} (hst : (s.stream i).st ≠ .aborting) (h : area.isEmpty = true) :
    s.opEnds (handedOp i n bs c r kind slot area) = s.emptyEnds i n bs r (handedOp i n bs c r kind slot area) := by
  have running : (s.stream (handedOp i n bs c r kind slot area).stream).st ≠ .aborting := hst
  have entry : (handedOp i n bs c r kind slot area).entry .ok (handedOp i n bs c r kind slot area).area.isEmpty =
      { handedEntry i n bs r .ok ((le16 bs 2).setWidth 32) with empty := true } := by
    rw [show (handedOp i n bs c r kind slot area).area.isEmpty = true from h]
    rfl
  unfold State.opEnds
  rw [if_neg running, entry]
  rfl

/-- A stream whose record is consumed stays in its state (R71). -/
theorem State.handed_st (i : StreamId) (r : Ring) (s : State) :
    ((s.handed i r (s.stream i)).stream i).st = (s.stream i).st := by
  simp [State.handed, State.stream, State.setStream]

/-- A good drawing record becomes the op in flight, or ends at once (R70, R80). -/
theorem State.Good.begins {s : State} {i : StreamId} {n : Nat} {k : RecKind} {bs : List Byte} {c : StreamCfg} {r : Ring}
    (h : s.Good i n k bs c r) (kind : OpKind) (slot : SlotId) (area : Area) :
    s.beginOp (handOf i n bs .good c r) kind slot area =
      let t := s.handed i r (s.stream i)
      let op := handedOp i n bs c r kind slot area
      if area.isEmpty then t.emptyEnds i n bs r op else t.opBegins op := by
  rw [State.beginOp_eq h.ring]
  cases harea : area.isEmpty with
  | true =>
    have hst : ((s.handed i r (s.stream i)).stream i).st ≠ .aborting := by
      rw [State.handed_st]
      exact Stream.not_aborting_of_emits (Stream.emits_of_takesRecords h.toChosen.takesRecords)
    exact (State.opGoesOn_empty harea).trans (State.opEnds_handedOp hst harea)
  | false => exact State.opGoesOn_begun harea rfl

/-- The combine mode of each code of byte 21 (R77, 9.4). -/
theorem recCombine_codes (bs : List Byte) :
    (byteAt bs 21 = 0#8 → recCombine bs = .replace) ∧ (byteAt bs 21 = 1#8 → recCombine bs = .or) ∧
    (byteAt bs 21 = 2#8 → recCombine bs = .clear) ∧ (byteAt bs 21 = 3#8 → recCombine bs = .xor) := by
  refine ⟨fun h => ?_, fun h => ?_, fun h => ?_, fun h => ?_⟩ <;> simp [recCombine, Combine.ofCode, h]

/-! ## The pieces of a range (R168) -/

/-- Piece `j` of a range of `m` bytes: 256 bytes, but for the last. -/
theorem pieceSize_eq {m j : Nat} (h : j < (m + 255) / 256) :
    min 256 (m - 256 * j) = if j + 1 = (m + 255) / 256 then m - 256 * j else 256 := by
  split <;> omega

theorem readPieces_eq (m : Nat) : readPieces m =
    (List.range ((m + 255) / 256)).map fun j => (256 * j, if j + 1 = (m + 255) / 256 then m - 256 * j else 256) :=
  List.map_congr_left fun _ hj => congrArg (Prod.mk _) (pieceSize_eq (List.mem_range.1 hj))

/-- The first `count` pieces hold their bytes of the range, and no more than the range has. -/
theorem pieceSizes_sum (m count : Nat) :
    ((List.range count).map fun j => min 256 (m - 256 * j)).sum = min (256 * count) m := by
  induction count with
  | zero => simp
  | succ count ih => rw [List.range_succ, List.map_append, List.sum_append, ih, List.map_singleton, List.sum_singleton]; omega

theorem readPieces_sum (m : Nat) : ((readPieces m).map Prod.snd).sum = m := by
  rw [readPieces, List.map_map]
  refine (pieceSizes_sum m ((m + 255) / 256)).trans ?_
  omega

theorem readPieces_size {m : Nat} : ∀ c ∈ readPieces m, 1 ≤ c.2 ∧ c.2 ≤ 256 := by
  simp only [readPieces, Config.readPiece, List.mem_map, List.mem_range]
  rintro _ ⟨j, hj, rfl⟩
  simp only
  omega

/-- The requests of the first `count` pieces, asked for in order. -/
def Port.askPieces (addr : BitVec 64) (size : Nat → Nat) (count : Nat) (p : Port) : Port :=
  ((List.range count).map fun j => (256 * j, size j)).foldl
    (fun p c => p.askRead (.raster c.1) (addr + BitVec.ofNat 64 c.1) c.2) p

theorem Port.askPieces_succ (addr : BitVec 64) (size : Nat → Nat) (count : Nat) (p : Port) :
    p.askPieces addr size (count + 1) =
      (p.askPieces addr size count).askRead (.raster (256 * count)) (addr + BitVec.ofNat 64 (256 * count)) (size count) := by
  simp [Port.askPieces, List.range_succ]

/-- With the link open every piece is issued, in order, under the read limit. -/
theorem Port.askPieces_issued (p : Port) (addr : BitVec 64) (size : Nat → Nat) (hopen : p.busMaster = true ∧ p.linkUp = true)
    {limit : Nat} (hlimit : p.readLimit = some limit) (count : Nat) : p.askPieces addr size count = { p with
      nextId := p.nextId + count
      sent := p.sent ++ (List.range count).map fun j =>
        .readRequest (p.nextId + j) (addr + BitVec.ofNat 64 (256 * j)) (size j)
      outstanding := p.outstanding ++ (List.range count).map fun j =>
        { id := p.nextId + j, who := .raster (256 * j), addr := addr + BitVec.ofNat 64 (256 * j), len := size j
          limit := limit, got := List.replicate (size j) none, lost := false } } := by
  induction count with
  | zero => simp [Port.askPieces]
  | succ count ih =>
    rw [Port.askPieces_succ, ih, Port.askRead_eq Requester.noConfusion, if_pos hopen]
    simp [List.range_succ, hlimit, Nat.add_assoc]

/-- With the link closed every piece is left to wait, in order. -/
theorem Port.askPieces_waiting (p : Port) (addr : BitVec 64) (size : Nat → Nat)
    (hclosed : ¬(p.busMaster = true ∧ p.linkUp = true)) (count : Nat) : p.askPieces addr size count = { p with
      waiting := p.waiting ++ (List.range count).map fun j =>
        .read (.raster (256 * j)) (addr + BitVec.ofNat 64 (256 * j)) (size j) } := by
  induction count with
  | zero => simp [Port.askPieces]
  | succ count ih =>
    rw [Port.askPieces_succ, ih, Port.askRead_eq Requester.noConfusion, if_neg hclosed]
    simp [List.range_succ]

/-- The requests of a row's range are those of its pieces (R83, R168). -/
theorem Port.askRow_eq_askPieces (p : Port) (addr : BitVec 64) (m : Nat) : p.askRow addr m =
    p.askPieces addr (fun j => if j + 1 = (m + 255) / 256 then m - 256 * j else 256) ((m + 255) / 256) := by
  rw [Port.askRow, readPieces_eq, Port.askPieces]

/-! ## The rows -/

/-- Settles O46: the combine modes, the three drawing kinds, and the pieces of a PLACE's range. -/
theorem drawingRecordsBecomeTheOp : Obligations.DrawingRecordsBecomeTheOp := by
  refine ⟨recCombine_codes, ?_⟩
  intro s i n bs c r k src hopen x y w h mode value rect copied t box fill copy ds put first len row ended
  refine ⟨fun good => ?_, fun good hsrc => ?_, fun good => ?_, ?_⟩
  · simp only [exec, execFillRect, good.handOver, State.onOpen_of_openSlot hopen]
    exact congrArg Host.Outcome.next (good.begins (.fillRect box value mode) k rect)
  · have source : s.openSlot (handOf i n bs .good c r).stream (recSourceBand (handOf i n bs .good c r).bytes) = some src :=
      hsrc
    simp only [exec, execCopyRect, good.handOver, State.onOpen_of_openSlot hopen, source]
    exact congrArg Host.Outcome.next (good.begins (.copyRect src box (s32 bs 24) (s32 bs 28) mode) k copied)
  · simp only [exec, execPlace, good.handOver, State.onOpen_of_openSlot hopen]
    exact congrArg Host.Outcome.next (good.begins (.place box (le64 bs 32) (le16 bs 24).toNat ds value mode) k rect)
  · intro p addr m count start size
    refine ⟨readPieces_eq m, readPieces_sum m, readPieces_size, fun limit hlimit hlink => ?_, fun hlink => ?_⟩
    · rw [Port.askRow_eq_askPieces]
      exact p.askPieces_issued addr size (by simpa using hlink) hlimit count
    · rw [Port.askRow_eq_askPieces]
      exact p.askPieces_waiting addr size (by simpa using hlink) count

end Sys2Proof.Machine
end

section
/-!
The isolation of the streams in a hand-over: what each shared operation of a hand-over changes beyond its own stream (R65).
-/

namespace Sys2Proof.Machine

/-! ## Changes of one stream's own -/

/-- From `s` to `t` no stream but `i` changes, no slot of another stream, no lane, no band memory and no command. -/
structure State.OnlyStream (i : StreamId) (s t : State) : Prop where
  streams : ∀ j, j ≠ i → t.stream j = s.stream j
  lanes : t.lanes = s.lanes
  admin : t.admin = s.admin
  mem : t.bands.mem = s.bands.mem
  pending : t.pending = s.pending
  slots : ∀ k b, s.slot k = some b → b.stream ≠ i → t.slot k = some b

variable {i : StreamId} {s t u : State}

theorem State.OnlyStream.refl (i : StreamId) (s : State) : State.OnlyStream i s s :=
  ⟨fun _ _ => rfl, rfl, rfl, rfl, rfl, fun _ _ hb _ => hb⟩

theorem State.OnlyStream.then (h : State.OnlyStream i s t) (h' : State.OnlyStream i t u) : State.OnlyStream i s u where
  streams j hj := (h'.streams j hj).trans (h.streams j hj)
  lanes := h'.lanes.trans h.lanes
  admin := h'.admin.trans h.admin
  mem := h'.mem.trans h.mem
  pending := h'.pending.trans h.pending
  slots k b hb hne := h'.slots k b (h.slots k b hb hne) hne

/-- A change of the port, the ring unit, intake or the raster unit. -/
theorem State.OnlyStream.of_frame (streams : t.streams = s.streams) (lanes : t.lanes = s.lanes) (admin : t.admin = s.admin)
    (bands : t.bands = s.bands) (pending : t.pending = s.pending) : State.OnlyStream i s t where
  streams j _ := State.stream_congr streams j
  lanes := lanes
  admin := admin
  mem := by rw [bands]
  pending := pending
  slots k b hb _ := (State.slot_congr bands k).trans hb

theorem State.OnlyStream.mapStream (i : StreamId) (f : Stream → Stream) (s : State) :
    State.OnlyStream i s (s.mapStream i f) :=
  ⟨fun _ hj => State.stream_mapStream_ne f s hj, rfl, rfl, rfl, rfl, fun _ _ hb _ => hb⟩

/-! ## The band table -/

/-- A slot that changes is the stream's own. -/
theorem State.OnlyStream.of_slot {k : SlotId} (streams : t.streams = s.streams) (lanes : t.lanes = s.lanes)
    (admin : t.admin = s.admin) (mem : t.bands.mem = s.bands.mem) (pending : t.pending = s.pending)
    (own : ∀ b, s.slot k = some b → b.stream = i) (others : ∀ j, j ≠ k → t.slot j = s.slot j) : State.OnlyStream i s t where
  streams j _ := State.stream_congr streams j
  lanes := lanes
  admin := admin
  mem := mem
  pending := pending
  slots j b hb hne := (others j fun e => hne (own b (e ▸ hb))).trans hb

theorem State.OnlyStream.mapSlot {k : SlotId} (own : ∀ b, s.slot k = some b → b.stream = i) (f : BandSlot → BandSlot) :
    State.OnlyStream i s (s.mapSlot k f) :=
  .of_slot rfl rfl rfl rfl rfl own fun j hj => by rw [State.slot_mapSlot, if_neg hj]

theorem State.OnlyStream.discardSlot {k : SlotId} (own : ∀ b, s.slot k = some b → b.stream = i) :
    State.OnlyStream i s (s.discardSlot k) := by
  obtain ⟨_, _, hadmin, hstreams, _, _, hlanes, hpending⟩ := State.discardSlot_frame k s
  exact .of_slot hstreams hlanes hadmin (s.discardSlot_mem k) hpending own fun j hj => by
    rw [State.discardSlot_slot, if_neg hj]

/-- A new band takes a FREE slot (R9). -/
theorem State.OnlyStream.openNew {k : SlotId} (free : s.slot k = none) (band : Band) (pages : Nat) :
    State.OnlyStream i s (s.openNew i k band pages) where
  streams j hj := by rw [State.openNew_stream, if_neg hj]
  lanes := rfl
  admin := rfl
  mem := rfl
  pending := rfl
  slots j b hb _ := by
    have other : j ≠ k := by rintro rfl; simp [free] at hb
    rw [State.openNew_slot, if_neg other, hb]

/-- The slot of a stream's OPEN band is the stream's own (R69). -/
theorem State.openSlot_own {m : Band} {k : SlotId} (h : s.openSlot i m = some k) :
    ∀ b, s.slot k = some b → b.stream = i := by
  obtain ⟨⟨b, hb, hi, _, _⟩, _⟩ := State.openSlot_eq_some.1 h
  intro b' hb'
  cases hb.symm.trans hb'
  exact hi

/-! ## The operations of a hand-over -/

theorem State.emptyLatch_only (i : StreamId) (s : State) : State.OnlyStream i s (s.emptyLatch i) :=
  (State.OnlyStream.mapStream i (fun st => { st with latch := .empty }) s).then <| .of_frame rfl rfl rfl rfl rfl

theorem State.halt_only (i : StreamId) (info : HaltInfo) (s : State) : State.OnlyStream i s (s.halt i info) := by
  have emptied : ∀ f : Stream → Stream, State.OnlyStream i s ((s.mapStream i f).emptyLatch i) := fun f =>
    (State.OnlyStream.mapStream i f s).then (State.emptyLatch_only i _)
  unfold State.halt
  split
  case h_1 => exact emptied _
  case h_2 => exact emptied _
  all_goals exact .refl i s

theorem State.consumeRecord_only (i : StreamId) (s : State) : State.OnlyStream i s (s.consumeRecord i) :=
  (State.OnlyStream.mapStream i (fun st => { st with latch := .empty, ring := st.ring.map Ring.advance }) s).then <|
    .of_frame rfl rfl rfl rfl rfl

theorem State.holdEntry_only (i : StreamId) (e : Entry) (s : State) : State.OnlyStream i s (s.holdEntry i e) := by
  obtain ⟨_, hadmin, hstreams, _, hbands, hlanes, hpending⟩ := State.holdEntry_frame i e s
  exact .of_frame hstreams hlanes hadmin hbands hpending

theorem State.finishRecord_only (h : Hand) (owed : Bool) (st : Status) (extra : BitVec 32) (s : State) :
    State.OnlyStream h.stream s (s.finishRecord h owed st extra) := by
  unfold State.finishRecord
  split
  · exact (s.consumeRecord_only h.stream).then (State.holdEntry_only _ _ _)
  · exact s.consumeRecord_only h.stream

theorem State.failRecord_only (h : Hand) (st : Status) (band : Option Band) (s : State) :
    State.OnlyStream h.stream s (s.failRecord h st band) :=
  ((s.consumeRecord_only h.stream).then (State.halt_only _ _ _)).then (State.holdEntry_only _ _ _)

theorem State.ringFault_only (i : StreamId) (n : Nat) (s : State) : State.OnlyStream i s (s.ringFault i n) :=
  (State.OnlyStream.of_frame (s := s) (t := { s with intake := s.intake.turn i }) rfl rfl rfl rfl rfl).then <|
    (State.halt_only _ _ _).then (State.holdEntry_only _ _ _)

theorem State.skipRecord_only (h : Hand) (k : RecKind) (s : State) : State.OnlyStream h.stream s (s.skipRecord h k) :=
  (State.OnlyStream.mapStream h.stream _ s).then (State.finishRecord_only _ _ _ _ _)

theorem State.beginOp_only (h : Hand) (kind : OpKind) (slot : SlotId) (area : Area) (s : State) :
    State.OnlyStream h.stream s (s.beginOp h kind slot area) := by
  obtain ⟨hadmin, hstreams, _, hbands, hlanes, hpending⟩ :=
    State.opGoesOn_frame (h.op kind slot area) (s.consumeRecord h.stream)
  exact (s.consumeRecord_only h.stream).then (.of_frame hstreams hlanes hadmin hbands hpending)

/-- The record taken is the chosen stream's (R63). -/
theorem State.handFor_choice {row : Verdict → List Byte → Bool} {h : Hand} (hh : s.handFor row = some h) :
    s.handOverChoice = some h.stream := by
  unfold State.handFor at hh
  split at hh
  · cases hh
  · next i hi =>
    split at hh
    · split at hh <;> cases hh
      exact hi
    · cases hh

/-- A record's hand-over changes nothing beyond its stream if its kind's effect does not (R65). -/
theorem State.handOver_only {k : RecKind} {effect : Hand → State → State} (hc : s.handOverChoice = some i)
    (he : ∀ h : Hand, State.OnlyStream h.stream s (effect h s)) : State.OnlyStream i s (s.handOver k effect) := by
  unfold State.handOver
  split
  · exact .refl i s
  · next h hh =>
    obtain rfl : i = h.stream := Option.some.inj (hc.symm.trans (State.handFor_choice hh))
    split
    · exact s.failRecord_only h _ _
    · split
      · exact s.skipRecord_only h k
      · exact he h

theorem State.onOpen_only {h : Hand} {effect : SlotId → State → State}
    (he : ∀ k, s.openSlot h.stream (recBand h.bytes) = some k → State.OnlyStream h.stream s (effect k s)) :
    State.OnlyStream h.stream s (s.onOpen h effect) := by
  unfold State.onOpen
  split
  · exact s.failRecord_only h _ _
  · next k hk => exact he k hk

/-! ## The rows -/

theorem execRingFault_only (hc : s.handOverChoice = some i) (h : execRingFault s = .next t) : State.OnlyStream i s t := by
  unfold execRingFault at h
  simp only [hc] at h
  split at h <;> cases h
  · exact s.ringFault_only i _
  all_goals exact .refl i s

theorem execUnknownRecordKind_only (hc : s.handOverChoice = some i) (h : execUnknownRecordKind s = .next t) :
    State.OnlyStream i s t := by
  unfold execUnknownRecordKind at h
  split at h <;> cases h
  · exact .refl i s
  · next hand hh =>
    obtain rfl : i = hand.stream := Option.some.inj (hc.symm.trans (State.handFor_choice hh))
    exact s.failRecord_only hand _ _

theorem execOpenBand_only (hc : s.handOverChoice = some i) (h : execOpenBand s = .next t) : State.OnlyStream i s t := by
  cases h
  refine State.handOver_only hc fun h => ?_
  simp only
  split
  · exact s.failRecord_only h _ _
  · split
    · exact s.failRecord_only h _ _
    · split
      · exact .refl _ s
      · next k hk =>
        have opened := State.OnlyStream.openNew (i := h.stream) (State.lowestFree_some hk) (recBand h.bytes) h.cfg.pages
        split
        · exact opened.then (State.beginOp_only h _ _ _ _)
        · exact opened.then (State.finishRecord_only h _ _ _ _)

theorem execCopyRect_only (hc : s.handOverChoice = some i) (h : execCopyRect s = .next t) : State.OnlyStream i s t := by
  cases h
  refine State.handOver_only hc fun h => State.onOpen_only fun k _ => ?_
  split
  · exact s.failRecord_only h _ _
  · exact s.beginOp_only h _ _ _

theorem execMark_only (hc : s.handOverChoice = some i) (h : execMark s = .next t) : State.OnlyStream i s t := by
  cases h
  refine State.handOver_only hc fun h => ?_
  simp only
  split
  · exact s.finishRecord_only h _ _ _
  · exact (State.OnlyStream.mapStream h.stream _ s).then (State.finishRecord_only h _ _ _ _)

/-- The hand-over of each kind of record changes nothing beyond its stream (R65). -/
theorem exec_kindRow_only (k : RecKind) (hc : s.handOverChoice = some i) (h : exec (kindRow k) s = .next t) :
    State.OnlyStream i s t := by
  cases k with
  | openBand => exact execOpenBand_only hc h
  | fillRect => cases h; exact State.handOver_only hc fun h => State.onOpen_only fun k _ => s.beginOp_only h _ _ _
  | place => cases h; exact State.handOver_only hc fun h => State.onOpen_only fun k _ => s.beginOp_only h _ _ _
  | copyRect => exact execCopyRect_only hc h
  | closeBand =>
    cases h
    exact State.handOver_only hc fun h => State.onOpen_only fun k hk =>
      (State.OnlyStream.mapSlot (State.openSlot_own hk) _).then (State.finishRecord_only h _ _ _ _)
  | discardBand =>
    cases h
    exact State.handOver_only hc fun h => State.onOpen_only fun k hk =>
      (State.OnlyStream.discardSlot (State.openSlot_own hk)).then (State.finishRecord_only h _ _ _ _)
  | mark => exact execMark_only hc h

end Sys2Proof.Machine

namespace Sys2Proof.Machine

/-- Settles O11: each hand-over row changes nothing beyond the chosen stream. -/
theorem handOversAreIsolated : Obligations.HandOversAreIsolated := by
  intro c i j s t hrow hc hj h
  have only : State.OnlyStream i s t := by
    rcases hrow with rfl | rfl | ⟨k, rfl⟩
    · exact execRingFault_only hc h
    · exact execUnknownRecordKind_only hc h
    · exact exec_kindRow_only k hc h
  exact ⟨only.streams j hj, only.lanes, only.admin, only.mem, only.pending,
    fun k b hb hbj => only.slots k b hb (hbj ▸ hj)⟩

end Sys2Proof.Machine
end

section
/-!
Intake in the words of the statements: the round-robin choices and their conditions (R23, R59, R63, R64), the verdict of a
record and the end of a record read (R57, R60, R169).
-/

namespace Sys2Proof.Machine

/-! ## Round-robin -/

/-- A round-robin choice is the first stream from `i` on that qualifies (R59, R63). -/
theorem find_roundFrom_eq_some {p : StreamId → Bool} {i : StreamId} {n : Fin 4} :
    (roundFrom i).find? p = some (i + n) ↔ p (i + n) = true ∧ ∀ m, m < n → p (i + m) = false := by
  have round : roundFrom i = (List.finRange 4).map (i + ·) := by simp [roundFrom, List.finRange_succ]
  have inj (o : Option (Fin 4)) : o.map (i + ·) = some (i + n) ↔ o = some n := by simp
  rw [round, List.find?_map, inj, ← Fin.find?_eq_find?_finRange, Fin.find?_eq_some_iff]
  rfl

theorem Stream.takesRecords_iff {x : Stream} : x.takesRecords = true ↔ x.st = .running ∨ x.st = .draining := by
  simp [Stream.takesRecords]

/-- The hand-over arbiter's choice (R63). -/
theorem State.handOverChoice_eq_some {s : State} {n : Fin 4} : s.handOverChoice = some (s.intake.handNext + n) ↔
    s.port.part = .attached ∧ s.raster = .free ∧
    ((s.stream (s.intake.handNext + n)).takesRecords = true ∧ s.eligible (s.intake.handNext + n) = true) ∧
    ∀ m : Fin 4, m < n →
      ¬((s.stream (s.intake.handNext + m)).takesRecords = true ∧ s.eligible (s.intake.handNext + m) = true) := by
  unfold State.handOverChoice
  split
  · next h => simp only [find_roundFrom_eq_some, h, true_and, Bool.and_eq_true, ← Bool.not_eq_true]
  · next h => exact ⟨fun e => (by cases e), fun ⟨hpart, hfree, _⟩ => absurd ⟨hpart, hfree⟩ h⟩

/-- The fetch arbiter's choice (R59). -/
theorem State.fetchChoice_eq_some {s : State} {n : Fin 4} : s.fetchChoice = some (s.intake.fetchNext + n) ↔
    s.port.part = .attached ∧ s.intake.fetchRead = none ∧ (s.stream (s.intake.fetchNext + n)).fetchable = true ∧
    ∀ m : Fin 4, m < n → (s.stream (s.intake.fetchNext + m)).fetchable = false := by
  unfold State.fetchChoice
  split
  · next h => simp only [find_roundFrom_eq_some, h, true_and]
  · next h => exact ⟨fun e => (by cases e), fun ⟨hpart, hread, _⟩ => absurd ⟨hpart, hread⟩ h⟩

/-! ## What qualifies -/

theorem Stream.fetchable_iff {x : Stream} : x.fetchable = true ↔
    x.latch = .empty ∧ (x.st = .running ∨ x.st = .draining) ∧ ∃ r, x.ring = some r ∧ r.head ≠ r.tail := by
  simp [Stream.fetchable, Stream.takesRecords_iff, Option.any_eq_true, Ring.isEmpty, and_assoc]

/-- The code of a record kind (9.4). -/
def RecKind.code : RecKind → Byte
  | .openBand => 1#8
  | .fillRect => 2#8
  | .place => 3#8
  | .copyRect => 4#8
  | .closeBand => 5#8
  | .discardBand => 6#8
  | .mark => 7#8

theorem RecKind.ofCode_eq_some {b : Byte} {k : RecKind} : RecKind.ofCode b = some k ↔ b = k.code := by
  cases k <;> revert b <;> decide

theorem RecKind.ofCode_eq_none {b : Byte} : RecKind.ofCode b = none ↔ b.toNat = 0 ∨ 8 ≤ b.toNat := by
  revert b; decide

/-- Some slot is FREE exactly when there is a lowest one (R9). -/
theorem State.lowestFree_isSome {s : State} : s.lowestFree.isSome = true ↔ ∃ k, s.slot k = none := by
  simp [State.lowestFree, allSlots, List.find?_isSome]

/-- Quota for P more pages, and a FREE slot (R1, R64). -/
theorem State.bandFits_iff {s : State} {i : StreamId} : s.bandFits i = true ↔
    (∃ k, s.slot k = none) ∧ ∃ c, (s.stream i).cfg = some c ∧
      s.pagesHeld i + (c.width * c.depth / 8 * c.height + 32767) / 32768 ≤ c.quota := by
  simp only [State.bandFits, Option.any_eq_true, Bool.and_eq_true, decide_eq_true_eq, State.lowestFree_isSome]
  exact ⟨fun ⟨c, hc, hquota, hfree⟩ => ⟨hfree, c, hc, hquota⟩, fun ⟨hfree, c, hc, hquota⟩ => ⟨c, hc, hquota, hfree⟩⟩

/-- A good record waits only as an OPEN_BAND that does not fit or an EMITTED mark without room (R64). -/
theorem State.goodEligible_iff {s : State} {i : StreamId} {bs : List Byte} : s.goodEligible i bs = true ↔
    (byteAt bs 0 = 1#8 → s.bandFits i = true) ∧
      (byteAt bs 0 = 7#8 → byteAt bs 8 = 1#8 → (s.stream i).marks.length < Config.markLimit) := by
  cases hk : RecKind.ofCode (byteAt bs 0) with
  | none =>
    have other : byteAt bs 0 ≠ 1#8 ∧ byteAt bs 0 ≠ 7#8 := ⟨fun h => by simp [h, RecKind.ofCode] at hk,
      fun h => by simp [h, RecKind.ofCode] at hk⟩
    simp [State.goodEligible, recCode, hk, other]
  | some k =>
    have code := RecKind.ofCode_eq_some.1 hk
    simp only [State.goodEligible, recCode, hk]
    cases k with
    | mark => simp [code, RecKind.code, recEmitted, imp_iff_not_or]
    | _ => simp [code, RecKind.code]

/-- A latch is eligible when it is FAULTED, or HELD with a failed verdict or a good record that need not wait (R64). -/
theorem State.eligible_iff {s : State} {i : StreamId} : s.eligible i = true ↔ (∃ n, (s.stream i).latch = .faulted n) ∨
    ∃ n bs v, (s.stream i).latch = .held n bs v ∧ (v = .good → s.goodEligible i bs = true) := by
  unfold State.eligible
  cases (s.stream i).latch with
  | held n bs v => cases v <;> simp
  | empty | fetching n | faulted n => simp

/-- Pages held, slot by slot (R23). -/
theorem State.pagesHeld_eq (s : State) (i : StreamId) : s.pagesHeld i =
    ((((List.finRange 64).filterMap s.slot).filter fun b => b.stream == i).map fun b => b.pages.length).sum := by
  have live : s.bands.live = (List.finRange 64).filterMap s.slot := by
    have slots : s.bands.slots.toList = (List.finRange 64).map s.slot :=
      List.ext_getElem (by simp) fun k _ _ => by simp [State.slot, Vector.get_eq_getElem]
    rw [Bands.live, slots, List.filterMap_map]
    rfl
  rw [State.pagesHeld, live]

/-- Settles O12: the two choices, and the conditions of each. -/
theorem arbitersChooseRoundRobin : Obligations.ArbitersChooseRoundRobin := by
  refine fun s n => ⟨?_, State.fetchChoice_eq_some, fun i => ⟨Stream.fetchable_iff, ?_, s.pagesHeld_eq i⟩⟩
  · simp only [State.handOverChoice_eq_some, Stream.takesRecords_iff]
  · simp only [State.eligible_iff, State.goodEligible_iff, State.bandFits_iff, Config.markLimit]

/-! ## The verdict of a record (R57) -/

theorem Combine.ofCode_isSome {b : Byte} : (Combine.ofCode b).isSome = true ↔ b.toNat ≤ 3 := by
  revert b; decide

theorem checkRecord_eq_badKind {d : Nat} {bs : List Byte} :
    checkRecord d bs = .badKind ↔ (byteAt bs 0).toNat = 0 ∨ 8 ≤ (byteAt bs 0).toNat := by
  rw [← RecKind.ofCode_eq_none, checkRecord, recCode]
  cases RecKind.ofCode (byteAt bs 0) with
  | none => simp
  | some k => simp only; split <;> simp

/-- A record is good when its kind is known, no flag but NOTIFY is set and its kind's bytes pass (R57). -/
theorem checkRecord_eq_good {d : Nat} {bs : List Byte} : checkRecord d bs = .good ↔ (byteAt bs 1).toNat ≤ 1 ∧
    ∃ k : RecKind, (byteAt bs 0).toNat = k.code.toNat ∧ recordReservedOk k bs = true ∧ recordFieldsOk d k bs = true := by
  simp only [BitVec.toNat_inj, ← RecKind.ofCode_eq_some]
  rw [checkRecord, recCode]
  cases RecKind.ofCode (byteAt bs 0) with
  | none => simp
  | some k => simp [and_assoc]

/-- The kinds of records, one after another. -/
theorem RecKind.exists_iff {p : RecKind → Prop} : (∃ k, p k) ↔
    p .openBand ∨ p .fillRect ∨ p .place ∨ p .copyRect ∨ (p .closeBand ∨ p .discardBand) ∨ p .mark := by
  constructor
  · rintro ⟨k, h⟩
    cases k <;> simp [h]
  · rintro (h | h | h | h | (h | h) | h) <;> exact ⟨_, h⟩

/-! ## The end of a record read (R60) -/

/-- The fetch arbiter's read has ended, and no latch has changed (R60). -/
def State.recordReadDone (q : ReadReq) (s : State) : State :=
  { s.withoutRead q with intake := { s.intake with fetchRead := none } }

theorem State.readEnds_dropped {s : State} {q : ReadReq} {f : FetchRead} (hwho : q.who = .fetch)
    (hread : s.intake.fetchRead = some f) (hdropped : f.dropped = true) (res : Option (List Byte)) :
    s.readEnds q res = s.recordReadDone q := by
  simp [State.readEnds, State.recordReadEnds, State.recordReadDone, State.withoutRead, hwho, hread, hdropped]

/-- The latch that a record read was issued for takes the record or the fault (R57, R60). -/
theorem State.readEnds_latched {s : State} {q : ReadReq} {f : FetchRead} {m : Nat} {c : StreamCfg} (hwho : q.who = .fetch)
    (hpart : s.port.part = .attached) (hread : s.intake.fetchRead = some f) (hdropped : f.dropped = false)
    (hlatch : (s.stream f.stream).latch = .fetching m) (hcfg : (s.stream f.stream).cfg = some c) (res : Option (List Byte)) :
    s.readEnds q res = (s.recordReadDone q).setStream f.stream { s.stream f.stream with
      latch := res.elim (.faulted m) fun bs => .held m bs (checkRecord c.depth bs) } := by
  simp only [State.stream] at hlatch hcfg
  cases res <;>
    simp [State.readEnds, State.recordReadEnds, State.recordReadDone, State.withoutRead, State.mapStream_eq_setStream,
      State.setStream, State.stream, hwho, hread, hdropped, hpart, hlatch, hcfg]

/-- A completion that brings a request's last bytes (R169). -/
theorem execReadCompletion_whole {s : State} {id off : Nat} {data bs : List Byte} {q : ReadReq}
    (hq : s.port.request id = some q) (hlost : q.lost = false) (hbs : (q.fill off data).whole = some bs) :
    exec (.readCompletion id off data true) s = .next (s.readEnds q (some bs)) := by
  simp [exec, execReadCompletion, State.takeCompletion, hq, hlost, hbs]

/-- A completion with an error status (R169). -/
theorem execReadCompletion_error {s : State} {id off : Nat} {data : List Byte} {q : ReadReq}
    (hq : s.port.request id = some q) (hlost : q.lost = false) :
    exec (.readCompletion id off data false) s = .next (s.readEnds q none) := by
  simp [exec, execReadCompletion, State.takeCompletion, hq, hlost]

/-- The read limit's expiry (R169). -/
theorem execReadLimitExpiry_outstanding {s : State} {id : Nat} {q : ReadReq} (hq : s.port.request id = some q) :
    exec (.readLimitExpiry id) s = .next (s.readEnds q none) := by
  simp only [exec, execReadLimitExpiry, hq]

/-- A completion that leaves bytes of the request missing (R169, log 7). -/
theorem execReadCompletion_partial {s : State} {id off : Nat} {data : List Byte} {q : ReadReq}
    (hq : s.port.request id = some q) (hlost : q.lost = false) (hbs : (q.fill off data).whole = none) :
    exec (.readCompletion id off data true) s = .next { s with port := { s.port with
      outstanding := s.port.outstanding.map fun x => if x.id = id then q.fill off data else x } } := by
  simp [exec, execReadCompletion, State.takeCompletion, hq, hlost, hbs]

/-- A completion or an expiry for a request that is not outstanding (R169, log 7). -/
theorem exec_not_outstanding {s : State} {id : Nat} (hq : s.port.request id = none) (off : Nat) (data : List Byte) :
    (∀ good, exec (.readCompletion id off data good) s = .next s) ∧ exec (.readLimitExpiry id) s = .next s := by
  simp [exec, execReadCompletion, execReadLimitExpiry, State.takeCompletion, hq]

/-- Settles O28: the verdict, kind by kind, and each end of a record read. -/
theorem recordReadsFillTheirLatch : Obligations.RecordReadsFillTheirLatch := by
  refine ⟨fun d bs => ⟨checkRecord_eq_badKind, ?_⟩, fun s id off data q => ⟨fun hq => ?_, fun hq hlost hbs => ?_, ?_⟩⟩
  · rw [checkRecord_eq_good, RecKind.exists_iff]
    refine and_congr_right fun _ => ?_
    simp [RecKind.code, recordReservedOk, recordFieldsOk, zeroBytes_iff, Combine.ofCode_isSome, dotValueOk, and_assoc,
      or_and_right]
  · obtain ⟨completion, expiry⟩ := exec_not_outstanding hq off data
    exact ⟨completion true, completion false, expiry⟩
  · exact execReadCompletion_partial hq hlost hbs
  · rintro i f hq hlost hwho hpart hread rfl done latched
    have error : exec (.readCompletion id off data false) s = .next (s.readEnds q none) := execReadCompletion_error hq hlost
    have expiry : exec (.readLimitExpiry id) s = .next (s.readEnds q none) := execReadLimitExpiry_outstanding hq
    refine ⟨fun m c hdropped hlatch hcfg => ?_, fun hdropped => ?_⟩
    · have ends := State.readEnds_latched hwho hpart hread hdropped hlatch hcfg
      refine ⟨fun bs hbs => ?_, ?_, ?_⟩
      · rw [execReadCompletion_whole hq hlost hbs, ends]; rfl
      · rw [error, ends]; rfl
      · rw [expiry, ends]; rfl
    · have ends := State.readEnds_dropped hwho hread hdropped
      refine ⟨fun hbs => ?_, ?_, ?_⟩
      · obtain ⟨bs, hbs⟩ := Option.ne_none_iff_exists'.1 hbs
        rw [execReadCompletion_whole hq hlost hbs, ends]; rfl
      · rw [error, ends]; rfl
      · rw [expiry, ends]; rfl

end Sys2Proof.Machine
end

section
/-!
The raster unit in the words of the statements: clipped areas, the end of an op, and each end of a PLACE's source read (R79,
R80, R83, R85, R86, R88, R89, R91).
-/

namespace Sys2Proof.Machine

/-- Settles O47: each bound of a clipped area is the rectangle's or the band's, and a corner dot lies in any area with dots. -/
theorem clippedAreasHoldTheVisibleDots : Obligations.ClippedAreasHoldTheVisibleDots := by
  intro x y sx sy w h width height u v
  refine ⟨?_, ?_, fun a => ?_⟩
  · simp only [clipRect]
    omega
  · simp only [clipCopy]
    omega
  · simp only [Area.isEmpty, Bool.or_eq_true, decide_eq_true_eq]
    refine ⟨fun hempty p q => by omega, fun hnone => ?_⟩
    have corner := hnone a.c0 a.r0
    omega

/-- An op that has lines left goes on as it began: a PLACE asks for its next source row, the others await their row write
(R78, R83). -/
theorem State.opGoesOn_more {s : State} {op : Op} (h : op.area.isEmpty = false) (hrows : op.rowsDone < op.area.rows) :
    s.opGoesOn op = s.opBegins op := by
  have more : (op.area.isEmpty || decide (op.area.rows ≤ op.rowsDone)) = false := by simpa [h] using hrows
  unfold State.opGoesOn State.opBegins
  rw [more]
  cases op.kind <;> rfl

theorem State.opBegins_filled {s : State} {op : Op} (h : op.kind.filled = true) :
    s.opBegins op = { s with raster := .executing op } := by
  unfold State.opBegins
  cases hk : op.kind with
  | place => simp [hk, OpKind.filled] at h
  | initialFill | fillRect | copyRect => rfl

/-- The end of an op after its last line: silent for an ABORTING stream and without NOTIFY, otherwise with its OK entry (R88,
R91). -/
theorem State.opGoesOn_last {s : State} {op : Op} (h : op.area.isEmpty = false) (hrows : op.area.rows ≤ op.rowsDone) :
    ((s.stream op.stream).st = .aborting ∨ op.notify = false → s.opGoesOn op = { s with raster := .free }) ∧
    ((s.stream op.stream).st ≠ .aborting → op.notify = true →
      s.opGoesOn op = State.admitAsMade .raster { s with raster := .posting op (op.entry .ok false) }) := by
  have ends : s.opGoesOn op = s.opEnds op := by simp [State.opGoesOn, hrows]
  rw [ends, State.opEnds, h]
  refine ⟨fun silent => ?_, fun hst hn => ?_⟩
  · rcases silent with hs | hs <;> simp [hs]
  · rw [if_neg hst, if_pos hn]

theorem State.opFaults_aborting {s : State} {op : Op} (h : (s.stream op.stream).st = .aborting) :
    s.opFaults op = { s with raster := .free } := by
  simp only [State.opFaults, if_pos h]

/-- A source fault halts a stream that takes records: the slot damaged, the halt claim taken, the entry offered (R89). -/
theorem State.opFaults_halts {s : State} {op : Op} (h : (s.stream op.stream).takesRecords = true) :
    s.opFaults op = State.admitAsMade .raster
      { (s.mapSlot op.slot fun b => { b with damaged := true }).setStream op.stream ((s.stream op.stream).haltedBy
          { reason := .sourceFault, index := op.index, band := some op.band }) with
        intake := s.intake.drop op.stream
        raster := .posting op (op.entry .sourceFault false) } := by
  have hst : (s.stream op.stream).st ≠ .aborting := Stream.not_aborting_of_emits (Stream.emits_of_takesRecords h)
  have takes : ((s.mapSlot op.slot fun b => { b with damaged := true }).stream op.stream).takesRecords = true := h
  unfold State.opFaults
  rw [if_neg hst]
  simp only [State.halt_of_takesRecords takes]
  rfl

/-! ## PLACE: each end of a source read -/

theorem Op.line_place {op : Op} {box : Rect} {src : BitVec 64} {pitch ds : Nat} {ink : BitVec 2} {mode : Combine}
    (h : op.kind = .place box src pitch ds ink mode) : op.line = op.area.r0 + op.rowsDone := by
  simp [Op.line, Op.descending, h]

/-- The op after a source request at `first` has returned with the bytes `bs` (R83). -/
def Op.rowTaken (op : Op) (first : Nat) (bs : List Byte) : Op :=
  { op with readsOut := op.readsOut - 1, rowData := op.rowData.take first ++ bs ++ op.rowData.drop (first + bs.length) }

/-- The op after a source request of it has faulted (R85). -/
def Op.marked (op : Op) : Op := { op with readsOut := op.readsOut - 1, fault := true }

/-- The outcome of a source read goes to the op in flight (R83). -/
theorem State.readEnds_source {s : State} {q : ReadReq} {first : Nat} {op : Op} (hwho : q.who = .raster first)
    (hpart : s.port.part = .attached) (hraster : s.raster = .executing op) (res : Option (List Byte)) :
    s.readEnds q res = (s.withoutRead q).sourceFinishes first res op := by
  simp [State.readEnds, State.sourceReadEnds, State.withoutRead, hwho, hraster, hpart]

/-- Data of an unmarked op: kept while other requests are outstanding, and written with the last (R83). -/
theorem State.sourceFinishes_data {s : State} {op : Op} (hfault : op.fault = false) (first : Nat) (bs : List Byte) :
    (2 ≤ op.readsOut → s.sourceFinishes first (some bs) op = { s with raster := .executing (op.rowTaken first bs) }) ∧
    (op.readsOut = 1 → s.sourceFinishes first (some bs) op = s.writeRow (op.rowTaken first bs)) := by
  refine ⟨fun h => ?_, fun h => ?_⟩
  · have left : op.readsOut - 1 ≠ 0 := by omega
    simp [State.sourceFinishes, hfault, left, Op.rowTaken]
  · simp [State.sourceFinishes, hfault, h, Op.rowTaken]

/-- A fault, or data of a marked op: the op is marked, and the last request's end is the op's (R85). -/
theorem State.sourceFinishes_marked {s : State} {op : Op} {res : Option (List Byte)}
    (h : res = none ∨ op.fault = true) (first : Nat) :
    (2 ≤ op.readsOut → s.sourceFinishes first res op = { s with raster := .executing op.marked }) ∧
    (op.readsOut = 1 → s.sourceFinishes first res op = s.opFaults op.marked) := by
  have branches : s.sourceFinishes first res op =
      if op.readsOut - 1 = 0 then s.opFaults op.marked else { s with raster := .executing op.marked } := by
    rcases h with rfl | hf
    · rfl
    · cases res with
      | none => rfl
      | some bs => simp only [State.sourceFinishes, hf, if_true]; rfl
  rw [branches]
  exact ⟨fun h => if_neg (by omega), fun h => if_pos (by omega)⟩

/-- What ends a source read without bytes that its op uses. -/
theorem exec_source_marked {s : State} {id off : Nat} {data : List Byte} {q : ReadReq} {op : Op} {c : Instr}
    (hq : s.port.request id = some q) (hlost : q.lost = false)
    (hc : c = .readCompletion id off data false ∨ c = .readLimitExpiry id ∨
      (c = .readCompletion id off data true ∧ (q.fill off data).whole ≠ none ∧ op.fault = true)) :
    ∃ res, (res = none ∨ op.fault = true) ∧ exec c s = .next (s.readEnds q res) := by
  rcases hc with rfl | rfl | ⟨rfl, hwhole, hf⟩
  · exact ⟨none, .inl rfl, execReadCompletion_error hq hlost⟩
  · exact ⟨none, .inl rfl, execReadLimitExpiry_outstanding hq⟩
  · obtain ⟨bs, hbs⟩ := Option.ne_none_iff_exists'.1 hwhole
    exact ⟨some bs, .inr hf, execReadCompletion_whole hq hlost hbs⟩

/-- Settles O31: the data of an unmarked op, and whatever ends a read of a marked one. -/
theorem placeRowsAreWrittenOrFault : Obligations.PlaceRowsAreWrittenOrFault := by
  intro s id off data q first op box src pitch ds ink mode hq hlost hwho hpart hraster hkind harea u left entry
  have ends := State.readEnds_source hwho hpart hraster
  refine ⟨fun bs hbs hfault => ?_, fun c hc => ?_⟩
  · intro op' next v row start len
    rw [execReadCompletion_whole hq hlost hbs, ends]
    obtain ⟨kept, written⟩ := State.sourceFinishes_data (s := s.withoutRead q) hfault first bs
    refine ⟨fun h => congrArg _ (kept h), fun h => ?_⟩
    have goes : (s.withoutRead q).sourceFinishes first (some bs) op = v.opGoesOn next := written h
    rw [goes]
    refine ⟨fun hmore => ?_, fun hlast => ?_⟩
    · have hnext : next.kind = .place box src pitch ds ink mode := hkind
      rw [State.opGoesOn_more (op := next) harea hmore, State.opBegins]
      simp only [hnext, State.askSourceRow, Op.line_place hnext]
      rfl
    · obtain ⟨silent, offers⟩ := State.opGoesOn_last (s := v) (op := next) harea hlast
      exact ⟨fun hs => congrArg _ (silent hs), fun hst hn => congrArg _ (offers hst hn)⟩
  · intro bad
    obtain ⟨res, hres, hexec⟩ := exec_source_marked hq hlost hc
    obtain ⟨kept, faults⟩ := State.sourceFinishes_marked (s := s.withoutRead q) hres first
    rw [hexec, ends]
    refine ⟨fun h => congrArg _ (kept h), fun h => ?_⟩
    rw [faults h]
    exact ⟨fun hst => congrArg _ (State.opFaults_aborting hst), fun htakes => congrArg _ (State.opFaults_halts htakes)⟩

end Sys2Proof.Machine
end

section
/-!
The dots of a band: a byte's dots, the bytes of a line and their addresses, and what one row write leaves of each (R2, R77,
R78, R81 to R84).
-/

namespace Sys2Proof.Machine

/-! ## The dots of a byte (R2) -/

theorem getLsbD_eq_false_of_lt_two_pow {w d i : Nat} {v : BitVec w} (h : v.toNat < 2 ^ d) (hi : d ≤ i) : v.getLsbD i = false :=
  Nat.testBit_lt_two_pow (h.trans_le (Nat.pow_le_pow_right (by decide) hi))

/-- The bits of a dot: `d` of its byte's, dot 0 at the most significant end. -/
theorem getLsbD_dotOfByte {d n i : Nat} (b : Byte) (hi : i < 2) :
    (dotOfByte d b n).getLsbD i = (decide (i < d) && b.getLsbD (8 - d * (n + 1) + i)) := by
  rw [dotOfByte, BitVec.getLsbD_ofNat, Nat.testBit_mod_two_pow, Nat.testBit_shiftRight, BitVec.testBit_toNat]
  simp [hi]

theorem dotOfByte_lt {d : Nat} (hd : d ≤ 2) (b : Byte) (n : Nat) : (dotOfByte d b n).toNat < 2 ^ d := by
  have fits : 2 ^ d ≤ 2 ^ 2 := Nat.pow_le_pow_right (by decide) hd
  have rem := Nat.mod_lt (b.toNat >>> (8 - d * (n + 1))) (Nat.two_pow_pos d)
  rw [dotOfByte, BitVec.toNat_ofNat, Nat.mod_eq_of_lt (rem.trans_le fits)]
  exact rem

/-- A bit of a byte put together of parts is a bit of one of them. -/
theorem getLsbD_foldl_or {w : Nat} (g : Nat → BitVec w) (l : List Nat) (acc : BitVec w) (i : Nat) :
    (l.foldl (fun acc n => acc ||| g n) acc).getLsbD i = (acc.getLsbD i || l.any fun n => (g n).getLsbD i) := by
  induction l generalizing acc with
  | nil => simp
  | cons n l ih => simp [ih, Bool.or_assoc]

/-- Among the places of a byte's dots, dot `k` has bits only in its own. -/
theorem getLsbD_placedDot {d n k i : Nat} (hd : d = 1 ∨ d = 2) {v : BitVec 2} (hv : v.toNat < 2 ^ d) (hi : i < d)
    (hn : n < dotsPerByte d) (hk : k < dotsPerByte d) :
    (v.setWidth 8 <<< (8 - d * (k + 1))).getLsbD (8 - d * (n + 1) + i) = (decide (k = n) && v.getLsbD i) := by
  simp only [BitVec.getLsbD_shiftLeft, BitVec.getLsbD_setWidth]
  rcases lt_trichotomy k n with h | rfl | h
  · have below : 8 - d * (n + 1) + i < 8 - d * (k + 1) := by
      rcases hd with rfl | rfl <;> simp only [dotsPerByte] at hn hk <;> omega
    simp [below, h.ne]
  · have inside : 8 - d * (k + 1) + i < 8 := by rcases hd with rfl | rfl <;> simp only [dotsPerByte] at hk <;> omega
    simp [inside]
    omega
  · have above : d ≤ 8 - d * (n + 1) + i - (8 - d * (k + 1)) := by
      rcases hd with rfl | rfl <;> simp only [dotsPerByte] at hn hk <;> omega
    simp [getLsbD_eq_false_of_lt_two_pow hv above, h.ne']

/-- The bits of a byte put together of dots, at the place of dot `n`. -/
theorem getLsbD_packDots {d n i : Nat} (hd : d = 1 ∨ d = 2) (f : Nat → BitVec 2) (hn : n < dotsPerByte d)
    (hf : ∀ k, k < dotsPerByte d → (f k).toNat < 2 ^ d) (hi : i < d) :
    (packDots d f).getLsbD (8 - d * (n + 1) + i) = (f n).getLsbD i := by
  have placed : ∀ k ∈ List.range (dotsPerByte d),
      ((f k).setWidth 8 <<< (8 - d * (k + 1))).getLsbD (8 - d * (n + 1) + i) = (decide (k = n) && (f k).getLsbD i) :=
    fun k hk => getLsbD_placedDot hd (hf k (List.mem_range.1 hk)) hi hn (List.mem_range.1 hk)
  rw [packDots, getLsbD_foldl_or, BitVec.getLsbD_zero, Bool.false_or, Bool.eq_iff_iff, List.any_eq_true]
  refine ⟨fun ⟨k, hk, hbit⟩ => ?_, fun hbit => ⟨n, List.mem_range.2 hn, ?_⟩⟩
  · rw [placed k hk, Bool.and_eq_true, decide_eq_true_eq] at hbit
    obtain ⟨rfl, hbit⟩ := hbit
    exact hbit
  · simp [placed n (List.mem_range.2 hn), hbit]

/-- The dots of a byte put together of dots are these dots. -/
theorem dotOfByte_packDots {d n : Nat} (hd : d = 1 ∨ d = 2) (f : Nat → BitVec 2) (hn : n < dotsPerByte d)
    (hf : ∀ k, k < dotsPerByte d → (f k).toNat < 2 ^ d) : dotOfByte d (packDots d f) n = f n := by
  refine BitVec.eq_of_getLsbD_eq fun i hi => ?_
  rw [getLsbD_dotOfByte _ hi]
  by_cases hid : i < d
  · simp [hid, getLsbD_packDots hd f hn hf hid]
  · simp [hid, getLsbD_eq_false_of_lt_two_pow (hf n hn) (Nat.not_lt.1 hid)]

theorem combine_lt {d : Nat} (hd : d = 1 ∨ d = 2) (mode : Combine) {dst src : BitVec 2} (hdst : dst.toNat < 2 ^ d)
    (hsrc : src.toNat < 2 ^ d) : (combine mode dst src).toNat < 2 ^ d := by
  rcases hd with rfl | rfl
  · revert dst src
    cases mode <;> decide
  · exact (combine mode dst src).isLt

/-! ## Addresses of a band's bytes (R2) -/

theorem exists_bandAddr {pages : List Page} {o : Nat} (h : o < pages.length * Config.pageBytes) :
    ∃ a, bandAddr pages o = some a := by
  have hpage : o / Config.pageBytes < pages.length := Nat.div_lt_of_lt_mul (by rwa [Nat.mul_comm])
  simp [bandAddr, List.getElem?_eq_getElem hpage]

/-- An address inside a band lies on one of its pages. -/
theorem bandAddr_page {pages : List Page} {o a : Nat} (h : bandAddr pages o = some a) :
    ∃ p, pages[o / Config.pageBytes]? = some p ∧ p.val = a / Config.pageBytes ∧ o % Config.pageBytes = a % Config.pageBytes := by
  simp only [bandAddr, Option.map_eq_some_iff] at h
  obtain ⟨p, hp, rfl⟩ := h
  refine ⟨p, hp, ?_, ?_⟩ <;> simp only [Config.pageBytes] <;> omega

/-- Different bytes of a band stand at different addresses. -/
theorem bandAddr_inj {pages : List Page} (hn : pages.Nodup) {o o' a : Nat} (h : bandAddr pages o = some a)
    (h' : bandAddr pages o' = some a) : o = o' := by
  obtain ⟨p, hp, hpa, hmod⟩ := bandAddr_page h
  obtain ⟨p', hp', hpa', hmod'⟩ := bandAddr_page h'
  obtain rfl : p = p' := Fin.ext (hpa.trans hpa'.symm)
  obtain ⟨hlt, hget⟩ := List.getElem?_eq_some_iff.1 hp
  obtain ⟨hlt', hget'⟩ := List.getElem?_eq_some_iff.1 hp'
  have hdiv : o / Config.pageBytes = o' / Config.pageBytes := hn.getElem_inj_iff.1 (hget.trans hget'.symm)
  rw [← Nat.div_add_mod o Config.pageBytes, ← Nat.div_add_mod o' Config.pageBytes, hdiv, hmod, hmod']

theorem byteOffset_inj {lb y y' j j' : Nat} (hj : j < lb) (hj' : j' < lb) (h : y * lb + j = y' * lb + j') :
    y = y' ∧ j = j' := by
  have hy : y = y' := by
    have row := congrArg (· / lb) h
    simpa [Nat.mul_comm _ lb, Nat.mul_add_div (Nat.zero_lt_of_lt hj), Nat.div_eq_of_lt hj, Nat.div_eq_of_lt hj'] using row
  subst hy
  exact ⟨rfl, Nat.add_left_cancel h⟩

/-! ## The bytes of one row write (R78) -/

/-- The row write of the op's line touches byte `j` of that line. -/
def Op.touches (op : Op) (j : Nat) : Prop :=
  op.area.c0 / dotsPerByte op.depth ≤ j ∧ j ≤ (op.area.c1 - 1) / dotsPerByte op.depth

theorem Op.mem_rowCells {op : Op} {b : Bands} {v : Nat} {c : Host.Cell} : c ∈ op.rowCells b v ↔
    ∃ j, op.touches j ∧ bandAddr (b.pagesOf op.slot) (v * op.lineBytes + j) = some c.1 ∧ c.2 = op.newByte b v j := by
  simp only [Op.rowCells, List.mem_filterMap, List.mem_range, Option.map_eq_some_iff, Op.touches]
  constructor
  · rintro ⟨k, hk, a, ha, rfl⟩
    exact ⟨_, ⟨Nat.le_add_right _ k, by omega⟩, ha, rfl⟩
  · rintro ⟨j, ⟨hfirst, hlast⟩, ha, hbyte⟩
    refine ⟨j - op.area.c0 / dotsPerByte op.depth, by omega, c.1, ?_⟩
    rw [Nat.add_sub_cancel' hfirst, ← hbyte]
    exact ⟨ha, rfl⟩

/-- A row write writes no address twice. -/
theorem Op.rowCells_nodup {op : Op} {b : Bands} (hn : (b.pagesOf op.slot).Nodup) (v : Nat) :
    ((op.rowCells b v).map Prod.fst).Nodup := by
  simp only [Op.rowCells, List.map_filterMap, Option.map_map]
  refine List.Nodup.filterMap (fun k k' a hk hk' => ?_) List.nodup_range
  simp only [Function.comp_def, Option.map_id', Option.mem_def] at hk hk'
  have := bandAddr_inj hn hk hk'
  omega

/-- A row write leaves every byte outside those that it touches (R78). -/
theorem Op.read_writeRow_other {op : Op} {b : Bands} (hwf : Memory.wf b.mem) {a : Nat}
    (h : ∀ j, op.touches j → bandAddr (b.pagesOf op.slot) (op.line * op.lineBytes + j) ≠ some a) :
    Memory.read (op.writeRow b).mem a = Memory.read b.mem a := by
  refine Memory.read_writeAll_other _ _ hwf a fun c hc => ?_
  rintro rfl
  obtain ⟨j, hj, haddr, -⟩ := Op.mem_rowCells.1 hc
  exact h j hj haddr

/-- What a row write asks of the op's band (R76 to R78): canonical memory, a band of the op's geometry in the op's slot, columns
inside it. -/
structure Op.Writable (op : Op) (b : Bands) (slot : BandSlot) : Prop where
  wf : Memory.wf b.mem
  held : b.slots.get op.slot = some slot
  nodup : slot.pages.Nodup
  depth : op.depth = 1 ∨ op.depth = 2
  width : op.width % 32 = 0
  room : op.height * op.lineBytes ≤ slot.pages.length * Config.pageBytes
  right : op.area.c1 ≤ op.width
  cols : op.area.c0 < op.area.c1

namespace Op.Writable

variable {op : Op} {b : Bands} {slot : BandSlot} (h : op.Writable b slot)
include h

theorem pagesOf : b.pagesOf op.slot = slot.pages := by simp [Bands.pagesOf, h.held]

theorem lineBytes_mul : op.lineBytes * dotsPerByte op.depth = op.width := by
  have hw := h.width
  rw [Op.lineBytes]
  rcases h.depth with hd | hd <;> simp only [hd, dotsPerByte] <;> omega

theorem dotsPerByte_pos : 0 < dotsPerByte op.depth := by
  rcases h.depth with hd | hd <;> simp [hd, dotsPerByte]

theorem depth_le : op.depth ≤ 2 := by rcases h.depth with hd | hd <;> omega

theorem column_lt {x : Nat} (hx : x < op.width) : x / dotsPerByte op.depth < op.lineBytes :=
  Nat.div_lt_of_lt_mul (by rwa [Nat.mul_comm, h.lineBytes_mul])

theorem touches_lt {j : Nat} (hj : op.touches j) : j < op.lineBytes :=
  hj.2.trans_lt (h.column_lt (by have := h.right; have := h.cols; omega))

/-- A touched byte reads back as the row write made it. -/
theorem bandByte_touched (hline : op.line < op.height) {j : Nat} (hj : op.touches j) :
    bandByte (op.writeRow b).mem slot.pages (op.line * op.lineBytes + j) = op.newByte b op.line j := by
  have inBand : op.line * op.lineBytes + j < op.height * op.lineBytes :=
    calc op.line * op.lineBytes + j < op.line * op.lineBytes + op.lineBytes := Nat.add_lt_add_left (h.touches_lt hj) _
      _ = (op.line + 1) * op.lineBytes := (Nat.succ_mul _ _).symm
      _ ≤ op.height * op.lineBytes := Nat.mul_le_mul_right _ hline
  obtain ⟨a, ha⟩ := exists_bandAddr (inBand.trans_le h.room)
  have cell : (a, op.newByte b op.line j) ∈ op.rowCells b op.line := Op.mem_rowCells.2 ⟨j, hj, by rw [h.pagesOf, ha], rfl⟩
  have distinct := Op.rowCells_nodup (op := op) (b := b) (by rw [h.pagesOf]; exact h.nodup) op.line
  simp only [bandByte, ha]
  exact Memory.read_writeAll_mem _ _ h.wf distinct _ cell

/-- The other bytes of the band stay. -/
theorem bandByte_untouched {o : Nat} (ho : ∀ j, op.touches j → op.line * op.lineBytes + j ≠ o) :
    bandByte (op.writeRow b).mem slot.pages o = bandByte b.mem slot.pages o := by
  unfold bandByte
  cases ha : bandAddr slot.pages o with
  | none => rfl
  | some a =>
    refine Op.read_writeRow_other h.wf fun j hj haddr => ho j hj ?_
    rw [h.pagesOf] at haddr
    exact bandAddr_inj h.nodup haddr ha

/-- The dots of the area in the op's line are combined, every other dot of the band stays (R77, R78). -/
theorem bandDot_writeRow (hline : op.line < op.height)
    (hsrc : ∀ x, (op.source b x op.line).toNat < 2 ^ op.depth) {x y : Nat} (hx : x < op.width) :
    bandDot (op.writeRow b).mem slot.pages op.lineBytes op.depth x y =
      if y = op.line ∧ op.area.c0 ≤ x ∧ x < op.area.c1 then
        combine op.mode (bandDot b.mem slot.pages op.lineBytes op.depth x y) (op.source b x y)
      else bandDot b.mem slot.pages op.lineBytes op.depth x y := by
  have hpos := h.dotsPerByte_pos
  by_cases touched : y = op.line ∧ op.touches (x / dotsPerByte op.depth)
  · obtain ⟨rfl, hj⟩ := touched
    have column : x / dotsPerByte op.depth * dotsPerByte op.depth + x % dotsPerByte op.depth = x := Nat.div_add_mod' x _
    rw [bandDot, h.bandByte_touched hline hj, Op.newByte, dotOfByte_packDots h.depth _ (Nat.mod_lt _ hpos)]
    · simp only [column, h.pagesOf, true_and, bandDot]
    · intro k _
      dsimp only
      split
      · exact combine_lt h.depth _ (dotOfByte_lt h.depth_le _ k) (hsrc _)
      · exact dotOfByte_lt h.depth_le _ k
  · have same : bandByte (op.writeRow b).mem slot.pages (y * op.lineBytes + x / dotsPerByte op.depth) =
        bandByte b.mem slot.pages (y * op.lineBytes + x / dotsPerByte op.depth) :=
      h.bandByte_untouched fun j hj ho => touched <| by
        obtain ⟨hy, rfl⟩ := byteOffset_inj (h.touches_lt hj) (h.column_lt hx) ho
        exact ⟨hy.symm, hj⟩
    have outside : ¬(y = op.line ∧ op.area.c0 ≤ x ∧ x < op.area.c1) := fun ⟨hy, hleft, hright⟩ =>
      touched ⟨hy, Nat.div_le_div_right hleft, Nat.div_le_div_right (by omega)⟩
    rw [if_neg outside, bandDot, same, bandDot]

end Op.Writable

/-! ## Source values (R79, R81 to R84) -/

/-- A dot at depth 1 is a bit. -/
theorem dotOfByte_one {n : Nat} (b : Byte) (hn : n < 8) : dotOfByte 1 b n = if b.getLsbD (7 - n) then 1#2 else 0#2 := by
  refine BitVec.eq_of_getLsbD_eq fun i hi => ?_
  rw [getLsbD_dotOfByte b hi]
  by_cases hi0 : i = 0
  · subst hi0
    have place : 8 - 1 * (n + 1) + 0 = 7 - n := by omega
    rw [place]
    cases b.getLsbD (7 - n) <;> rfl
  · obtain rfl : i = 1 := by omega
    cases b.getLsbD (7 - n) <;> rfl

/-- A dot at depth 2 is two bits. -/
theorem dotOfByte_two {n : Nat} (b : Byte) (hn : n < 4) : dotOfByte 2 b n = b.extractLsb' (6 - 2 * n) 2 := by
  refine BitVec.eq_of_getLsbD_eq fun i hi => ?_
  have place : 8 - 2 * (n + 1) + i = 6 - 2 * n + i := by omega
  rw [getLsbD_dotOfByte b hi, BitVec.getLsbD_extractLsb', place]

/-- The byte of the source row that holds dot `k`: of the row's bytes the unit holds those from the first visible one on (R82,
R83). -/
def Op.heldByte (op : Op) (x : Int) (ds k : Nat) : Byte := byteAt op.rowData (k - op.firstByte x ds)

/-- A source row of depth 1 on depth 1 or 2: a set bit is 1, or the ink value (R81, R84). -/
theorem Op.source_place_one {op : Op} {b : Bands} {box : Rect} {addr : BitVec 64} {pitch : Nat} {ink : BitVec 2} {mode : Combine}
    (hk : op.kind = .place box addr pitch 1 ink mode) (u v : Nat) :
    let col := ((u : Int) - box.x).toNat
    op.source b u v =
      if (op.heldByte box.x 1 (col / 8)).getLsbD (7 - col % 8) then (if op.depth = 2 then ink else 1#2) else 0#2 := by
  intro col
  have bit : op.source b u v =
      placeValue 1 op.depth ink (if (op.heldByte box.x 1 (col / 8)).getLsbD (7 - col % 8) then 1#2 else 0#2) := by
    rw [← dotOfByte_one _ (Nat.mod_lt _ (by decide))]
    simp only [Op.source, hk, Nat.mul_one]
    rfl
  rw [bit]
  split <;> simp [placeValue]

/-- A source row of depth 2 on depth 2 (R81, R84). -/
theorem Op.source_place_two {op : Op} {b : Bands} {box : Rect} {addr : BitVec 64} {pitch : Nat} {ink : BitVec 2} {mode : Combine}
    (hk : op.kind = .place box addr pitch 2 ink mode) (u v : Nat) :
    let col := ((u : Int) - box.x).toNat
    op.source b u v = (op.heldByte box.x 2 (col / 4)).extractLsb' (6 - 2 * (col % 4)) 2 := by
  intro col
  have byte : col * 2 / 8 = col / 4 := by omega
  rw [← dotOfByte_two _ (Nat.mod_lt _ (by decide)), Op.heldByte, ← byte]
  simp only [Op.source, hk, placeValue]
  rfl

/-- Settles O15: the source value of each kind of op, and one line's dots and bytes. -/
theorem rowWritesCombineOneLine : Obligations.RowWritesCombineOneLine := by
  refine ⟨fun op b u v => ⟨?_, ?_, ?_, ?_⟩, ?_⟩
  · intro value hk; simp [Op.mode, Op.source, hk]
  · intro box value mode hk; simp [Op.mode, Op.source, hk]
  · intro src box sx sy mode hk; simp [Op.mode, hk]
  · intro box addr pitch ds ink mode hk col first held
    refine ⟨by simp [Op.mode, hk], ?_, ?_, ?_⟩
    · rintro rfl hd
      rw [Op.source_place_one hk, hd]
      rfl
    · rintro rfl hd
      rw [Op.source_place_one hk, hd]
      rfl
    · rintro rfl -
      exact Op.source_place_two hk u v
  · intro op b slot hwf hheld hnodup hdepth hwidth hroom hright hcols hline hsrc
    have h : op.Writable b slot := ⟨hwf, hheld, hnodup, hdepth, hwidth, hroom, hright, hcols⟩
    refine ⟨fun x y hx _ => h.bandDot_writeRow hline hsrc hx, fun a ha => ?_, rfl, rfl, fun dst src => ⟨rfl, rfl, rfl, rfl⟩⟩
    refine Op.read_writeRow_other hwf fun j hj => ?_
    rw [h.pagesOf]
    exact ha j hj.1 hj.2

end Sys2Proof.Machine
end

section
/-!
The row writes of an op, one after another: their order, the whole of a COPY_RECT, and ROW_WRITE (R78, R87, R88, R91).
-/

namespace Sys2Proof.Machine

/-! ## The order of the lines (R78) -/

theorem Op.line_descending {op : Op} {box : Rect} {sx sy : Int} {mode : Combine}
    (hkind : op.kind = .copyRect op.slot box sx sy mode) (h : 0 < box.y - sy) : op.line = op.area.r1 - 1 - op.rowsDone := by
  have down : op.descending = true := by
    rw [Op.descending, hkind]
    simpa using h
  rw [Op.line, if_pos down]

theorem Op.line_ascending {op : Op}
    (h : ∀ box sx sy mode, op.kind = .copyRect op.slot box sx sy mode → box.y - sy ≤ 0) : op.line = op.area.r0 + op.rowsDone := by
  have up : ¬op.descending = true := by
    unfold Op.descending
    cases hkind : op.kind with
    | initialFill | fillRect | place => simp
    | copyRect src box sx sy mode =>
      simp only [Bool.and_eq_true, beq_iff_eq, decide_eq_true_eq, not_and]
      rintro rfl
      have := h box sx sy mode hkind
      omega
  rw [Op.line, if_neg up]

/-- The line of the op's row write number `n`. -/
def Op.lineAt (op : Op) (n : Nat) : Nat := { op with rowsDone := n }.line

theorem Op.lineAt_eq (op : Op) (n : Nat) :
    op.lineAt n = if op.descending then op.area.r1 - 1 - n else op.area.r0 + n := rfl

/-- The row writes of an area take different lines. -/
theorem Op.lineAt_ne {op : Op} {m n : Nat} (hm : m < n) (hn : n < op.area.rows) : op.lineAt m ≠ op.lineAt n := by
  simp only [Op.lineAt_eq, Area.rows] at *
  split <;> omega

/-- The row writes of an area take its lines and no others. -/
theorem Op.exists_lineAt_eq {op : Op} {y : Nat} :
    (∃ m, m < op.area.rows ∧ op.lineAt m = y) ↔ op.area.r0 ≤ y ∧ y < op.area.r1 := by
  simp only [Op.lineAt_eq, Area.rows]
  cases op.descending with
  | true =>
    simp only [if_true]
    exact ⟨fun ⟨m, hm, hy⟩ => by omega, fun h => ⟨op.area.r1 - 1 - y, by omega⟩⟩
  | false =>
    simp only [Bool.false_eq_true, if_false]
    exact ⟨fun ⟨m, hm, hy⟩ => by omega, fun h => ⟨y - op.area.r0, by omega⟩⟩

/-- The order of R78 lets a COPY_RECT within one band read no line that it has written. -/
theorem Op.source_line_unwritten {op : Op} {box : Rect} {sx sy : Int} {mode : Combine}
    (hkind : op.kind = .copyRect op.slot box sx sy mode) {m n : Nat} (hm : m < n) :
    (op.lineAt n : Int) - box.y + sy ≠ op.lineAt m := by
  have down : op.descending = true ↔ 0 < box.y - sy := by simp [Op.descending, hkind]
  rw [Op.lineAt_eq, Op.lineAt_eq]
  by_cases hdesc : op.descending = true
  · have := down.1 hdesc
    simp only [if_pos hdesc]
    omega
  · have := mt down.2 hdesc
    simp only [if_neg hdesc]
    omega

/-! ## A whole COPY_RECT (R87) -/

/-- The bands after the first `n` row writes of the op. -/
def Op.writeRows (op : Op) (n : Nat) (b : Bands) : Bands :=
  (List.range n).foldl (fun a m => { op with rowsDone := m }.writeRow a) b

theorem Op.writeRows_succ (op : Op) (n : Nat) (b : Bands) :
    op.writeRows (n + 1) b = { op with rowsDone := n }.writeRow (op.writeRows n b) := by
  simp [Op.writeRows, List.range_succ]

theorem Op.writeRows_slots (op : Op) (n : Nat) (b : Bands) : (op.writeRows n b).slots = b.slots := by
  induction n with
  | zero => rfl
  | succ n ih => rw [Op.writeRows_succ]; exact ih

theorem Op.writeRows_wf (op : Op) (n : Nat) {b : Bands} (h : Memory.wf b.mem) : Memory.wf (op.writeRows n b).mem := by
  induction n with
  | zero => exact h
  | succ n ih => rw [Op.writeRows_succ]; exact Op.writeRow_wf _ _ ih

theorem Op.Writable.writeRows {op : Op} {b : Bands} {slot : BandSlot} (h : op.Writable b slot) (n : Nat) :
    ({ op with rowsDone := n } : Op).Writable (op.writeRows n b) slot :=
  { h with wf := op.writeRows_wf n h.wf, held := by rw [Op.writeRows_slots]; exact h.held }

/-- A row write leaves the bytes of a band on other pages. -/
theorem Op.Writable.bandByte_apart {op : Op} {b : Bands} {slot : BandSlot} (h : op.Writable b slot) {pages : List Page}
    (apart : ∀ p ∈ slot.pages, p ∉ pages) (o : Nat) :
    bandByte (op.writeRow b).mem pages o = bandByte b.mem pages o := by
  unfold bandByte
  cases ha : bandAddr pages o with
  | none => rfl
  | some a =>
    refine Op.read_writeRow_other h.wf fun j _ haddr => ?_
    rw [h.pagesOf] at haddr
    obtain ⟨p, hp, hpa, -⟩ := bandAddr_page ha
    obtain ⟨p', hp', hpa', -⟩ := bandAddr_page haddr
    obtain rfl : p' = p := Fin.ext (hpa'.trans hpa.symm)
    exact apart p' (List.mem_of_getElem? hp') (List.mem_of_getElem? hp)

theorem Op.Writable.bandDot_rows_apart {op : Op} {b : Bands} {slot : BandSlot} (h : op.Writable b slot) {pages : List Page}
    (apart : ∀ p ∈ slot.pages, p ∉ pages) (n lb d x y : Nat) :
    bandDot (op.writeRows n b).mem pages lb d x y = bandDot b.mem pages lb d x y := by
  induction n with
  | zero => rfl
  | succ n ih => rw [← ih, Op.writeRows_succ, bandDot, (h.writeRows n).bandByte_apart apart, bandDot]

/-- The source value of a COPY_RECT is the dot of the source band (R86). -/
theorem Op.source_copyRect {op : Op} {b : Bands} {src : SlotId} {box : Rect} {sx sy : Int} {mode : Combine}
    {source : BandSlot} (hkind : op.kind = .copyRect src box sx sy mode) (hsource : b.slots.get src = some source) (x y : Nat) :
    op.source b x y = bandDot b.mem source.pages op.lineBytes op.depth ((x : Int) - box.x + sx).toNat
      ((y : Int) - box.y + sy).toNat := by
  simp [Op.source, hkind, Bands.pagesOf, hsource]

/-- A COPY_RECT from the band `source` to the band `dest` (R86, R87): bands on different pages unless they are the same slot,
and every dot of the area with its source dot in the band. -/
structure Op.Copies (op : Op) (b : Bands) (src : SlotId) (box : Rect) (sx sy : Int) (mode : Combine) (dest source : BandSlot) :
    Prop extends op.Writable b dest where
  kind : op.kind = .copyRect src box sx sy mode
  sourceHeld : b.slots.get src = some source
  apart : src ≠ op.slot → ∀ p ∈ dest.pages, p ∉ source.pages
  bottom : op.area.r1 ≤ op.height
  visible : ∀ x y : Nat, (op.area.c0 ≤ x ∧ x < op.area.c1) ∧ op.area.r0 ≤ y ∧ y < op.area.r1 →
    (0 ≤ (x : Int) - box.x + sx ∧ (x : Int) - box.x + sx < op.width) ∧
      0 ≤ (y : Int) - box.y + sy ∧ (y : Int) - box.y + sy < op.height

/-- Dot (x, y) is one of the area's in the lines of the first `n` row writes. -/
def Op.written (op : Op) (n x y : Nat) : Prop := (op.area.c0 ≤ x ∧ x < op.area.c1) ∧ ∃ m, m < n ∧ op.lineAt m = y

theorem Op.written_succ {op : Op} {n x y : Nat} :
    op.written (n + 1) x y ↔ op.written n x y ∨ (y = op.lineAt n ∧ op.area.c0 ≤ x ∧ x < op.area.c1) := by
  rw [Op.written, Op.written, Nat.exists_lt_succ_right, and_or_left, eq_comm (a := y)]
  exact or_congr_right and_comm

theorem Op.written_rows {op : Op} {x y : Nat} :
    op.written op.area.rows x y ↔ (op.area.c0 ≤ x ∧ x < op.area.c1) ∧ op.area.r0 ≤ y ∧ y < op.area.r1 :=
  and_congr_right fun _ => Op.exists_lineAt_eq

/-- After the first `n` row writes the dots that they wrote are combined with their source values from before the first, and
the others are as they were. -/
def Op.RowsCopied (op : Op) (b : Bands) (pages : List Page) (n : Nat) : Prop :=
  ∀ x y, x < op.width →
    let dot (a : Bands) : BitVec 2 := bandDot a.mem pages op.lineBytes op.depth x y
    (op.written n x y → dot (op.writeRows n b) = combine op.mode (dot b) (op.source b x y)) ∧
    (¬op.written n x y → dot (op.writeRows n b) = dot b)

namespace Op.Copies

variable {op : Op} {b : Bands} {src : SlotId} {box : Rect} {sx sy : Int} {mode : Combine} {dest source : BandSlot}
  (h : op.Copies b src box sx sy mode dest source)
include h

theorem sourceHeld_writeRows (n : Nat) : (op.writeRows n b).slots.get src = some source := by
  rw [Op.writeRows_slots]; exact h.sourceHeld

/-- Row write number `n` still sees the source values from before the first (R87). -/
theorem source_writeRows {n : Nat} (hn : n < op.area.rows) (copied : op.RowsCopied b dest.pages n) {x : Nat}
    (hx : op.area.c0 ≤ x ∧ x < op.area.c1) : op.source (op.writeRows n b) x (op.lineAt n) = op.source b x (op.lineAt n) := by
  rw [Op.source_copyRect h.kind (h.sourceHeld_writeRows n), Op.source_copyRect h.kind h.sourceHeld]
  by_cases same : src = op.slot
  · obtain rfl : dest = source := Option.some.inj (h.held.symm.trans (same ▸ h.sourceHeld))
    obtain ⟨⟨left, right⟩, top, -⟩ := h.visible x (op.lineAt n) ⟨hx, Op.exists_lineAt_eq.1 ⟨n, hn, rfl⟩⟩
    refine (copied _ _ (by omega)).2 ?_
    rintro ⟨-, m, hm, hline⟩
    have unwritten := Op.source_line_unwritten (same ▸ h.kind) hm
    omega
  · exact h.bandDot_rows_apart (h.apart same) n _ _ _ _

theorem rowsCopied {n : Nat} (hn : n ≤ op.area.rows) : op.RowsCopied b dest.pages n := by
  induction n with
  | zero => exact fun x y _ => ⟨fun ⟨_, m, hm, _⟩ => absurd hm (Nat.not_lt_zero m), fun _ => rfl⟩
  | succ n ih =>
    intro x y hx dot
    have copied := ih (by omega)
    have inBand : op.lineAt n < op.height := (Op.exists_lineAt_eq.1 ⟨n, hn, rfl⟩).2.trans_le h.bottom
    have source_lt : ∀ x, (op.source (op.writeRows n b) x (op.lineAt n)).toNat < 2 ^ op.depth := fun x => by
      rw [Op.source_copyRect h.kind (h.sourceHeld_writeRows n)]
      exact dotOfByte_lt h.depth_le _ _
    have row : dot (op.writeRows (n + 1) b) = if y = op.lineAt n ∧ op.area.c0 ≤ x ∧ x < op.area.c1 then
        combine op.mode (dot (op.writeRows n b)) (op.source (op.writeRows n b) x y) else dot (op.writeRows n b) := by
      rw [Op.writeRows_succ]
      exact (h.writeRows n).bandDot_writeRow inBand source_lt hx
    rw [row, Op.written_succ]
    by_cases now : y = op.lineAt n ∧ op.area.c0 ≤ x ∧ x < op.area.c1
    · refine ⟨fun _ => ?_, fun hnot => absurd (.inr now) hnot⟩
      obtain ⟨rfl, hcols⟩ := now
      have before : dot (op.writeRows n b) = dot b :=
        (copied x _ hx).2 fun ⟨_, m, hm, hline⟩ => Op.lineAt_ne hm hn hline
      rw [if_pos ⟨rfl, hcols⟩, before, h.source_writeRows hn copied hcols]
    · rw [if_neg now, or_iff_left now]
      exact copied x y hx

end Op.Copies

/-! ## ROW_WRITE (R78, R88, R91) -/

theorem execRowWrite_writes {s : State} {op : Op} (hpart : s.port.part = .attached) (hraster : s.raster = .executing op)
    (hfilled : op.kind.filled = true) : exec .rowWrite s = .next (s.writeRow op) := by
  simp only [exec, execRowWrite, hraster]
  rw [if_pos ⟨hpart, hfilled⟩]

/-- Each end of ROW_WRITE (R78, R88, R91). -/
theorem rowWrite_ends {s : State} {op : Op} (hpart : s.port.part = .attached) (hraster : s.raster = .executing op)
    (hfilled : op.kind.filled = true) (harea : op.area.isEmpty = false) :
    let u : State := { s with bands := op.writeRow s.bands }
    let op' : Op := { op with rowsDone := op.rowsDone + 1 }
    (op.rowsDone + 1 < op.area.rows → exec .rowWrite s = .next { u with raster := .executing op' }) ∧
    (op.area.rows ≤ op.rowsDone + 1 →
      ((s.stream op.stream).st = .aborting ∨ op.notify = false → exec .rowWrite s = .next { u with raster := .free }) ∧
      ((s.stream op.stream).st ≠ .aborting → op.notify = true →
        exec .rowWrite s = .next (State.admitAsMade .raster { u with raster := .posting op' (op'.entry .ok false) }))) := by
  intro u op'
  have writes : exec .rowWrite s = .next (u.opGoesOn op') := execRowWrite_writes hpart hraster hfilled
  rw [writes]
  refine ⟨fun hmore => ?_, fun hlast => ?_⟩
  · rw [State.opGoesOn_more (op := op') harea hmore, State.opBegins_filled (op := op') hfilled]
  · obtain ⟨silent, offers⟩ := State.opGoesOn_last (s := u) (op := op') harea hlast
    exact ⟨fun hs => congrArg _ (silent hs), fun hst hn => congrArg _ (offers hst hn)⟩

/-- Settles O50: the order of the lines, the whole of a COPY_RECT, and each end of ROW_WRITE. -/
theorem rowWritesEndTheOp : Obligations.RowWritesEndTheOp := by
  refine ⟨fun op => ⟨?_, Op.line_ascending⟩, ?_, fun s op hpart hraster hfilled harea => ?_⟩
  · rintro ⟨box, sx, sy, mode, hkind, hdown⟩
    exact Op.line_descending hkind hdown
  · intro op b src box sx sy mode dest source hkind hwf hdest hsource hnodup hapart hdepth hwidth hroom _ harea
      hright hbottom su sv inside hvisible after x y hx _ old
    have cols : op.area.c0 < op.area.c1 := by
      simp only [Area.isEmpty, Bool.or_eq_false_iff, decide_eq_false_iff_not] at harea
      omega
    have h : op.Copies b src box sx sy mode dest source :=
      { wf := hwf, held := hdest, nodup := hnodup, depth := hdepth, width := hwidth, room := hroom, right := hright
        cols := cols, kind := hkind, sourceHeld := hsource, apart := hapart, bottom := hbottom, visible := hvisible }
    obtain ⟨copied, kept⟩ := h.rowsCopied le_rfl x y hx
    rw [Op.written_rows] at copied kept
    rw [Op.source_copyRect hkind hsource, show op.mode = mode by simp [Op.mode, hkind]] at copied
    exact ⟨copied, kept⟩
  · exact rowWrite_ends hpart hraster hfilled harea

end Sys2Proof.Machine
end

section
/-!
The lanes' operations in the words of the statements: a lane sends, is quiet, goes OFFLINE, posts an event (R94, R99, R111,
R133), and the SYNC, the HEADER and the ACCEPTs that carry a band on (R106, R112 to R117).
-/

namespace Sys2Proof.Machine

/-! ## One lane replaced -/

@[simp] theorem State.lane_setLane_same (i : StreamId) (x : Lane) (s : State) : (s.setLane i x).lane i = x := by
  simp [State.lane_setLane]

@[simp] theorem State.setLane_self (i : StreamId) (s : State) : s.setLane i (s.lane i) = s := by
  simp [State.setLane, State.lane]

@[simp] theorem State.mapLane_setLane (i : StreamId) (f : Lane → Lane) (x : Lane) (s : State) :
    (s.setLane i x).mapLane i f = s.setLane i (f x) := by
  rw [State.mapLane_eq_setLane, State.lane_setLane_same, State.setLane_setLane]

/-! ## Quiet, OFFLINE and sending lanes -/

/-- A transmission under way starts no timer in a quiet lane (R102). -/
theorem Lane.quiet_tx {l : Lane} {t : Transmission} (h : l.quiet.tx = some t) : t.counts = false := by
  obtain ⟨u, _, rfl⟩ := Option.map_eq_some_iff.1 h
  rfl

/-- A lane that is already quiet stays as it is. -/
theorem Lane.quiet_eq_self {x : Lane} (hout : x.out = none) (hw : x.txWaiting = false)
    (htx : ∀ t, x.tx = some t → t.counts = false) : x.quiet = x := by
  have tx : x.tx.map (fun t => { t with counts := false }) = x.tx := by
    cases h : x.tx with
    | none => rfl
    | some t => simp [← htx t h]
  rw [Lane.quiet, tx, ← hout, ← hw]

/-- A quiet lane enters OFFLINE as the lane itself does (R94, R111). -/
theorem Lane.offline_accepted (o : Outstanding) (l : Lane) : (l.accepted o).goOffline = l.offline := by
  cases h : l.tx <;> simp [Lane.accepted, Lane.goOffline, Lane.dropOut, Lane.offline, Lane.initial, h]

/-- What a lane sends, in the words of the statements: the bytes of a frame see the lane's progress and parameters alone. -/
theorem Lane.send_eq_sending (b : Bands) (i : StreamId) (f : Frame) (l : Lane) :
    l.send b i f = l.sending b i f (if f.isSync then 0#2 else l.seq) := by
  cases htx : l.tx with
  | none =>
    simp only [Lane.send, Lane.sending, Lane.transmit, htx]
    rfl
  | some t => simp [Lane.send, Lane.sending, Lane.transmit, htx]

/-! ## Events of a lane -/

/-- A lane with the event `ev` in its latch, or, in DETACHING, without it (R133, R138). -/
theorem State.postEvent_setLane (i : StreamId) (ev : LaneEvent) (x : Lane) (s : State) :
    (s.setLane i x).postEvent i ev =
      if s.port.part = .detaching then s.setLane i x
      else (s.setLane i { x with latch := some ev }).admitAsMade (.lane i) := by
  unfold State.postEvent
  rw [State.mapLane_setLane]
  rfl

/-- Without a stop order a lane stays as it is (R129). -/
theorem State.settleLane_of_noStop {i : StreamId} {s : State} (h : (s.lane i).stopPending = false) :
    s.settleLane i = s := by
  rw [State.settleLane, State.mapLane_eq_setLane]
  simp [Lane.settle, h]

/-- An admission of a lane's event gives no stop order. -/
theorem State.admitAsMade_noStop {i : StreamId} {s : State} (h : (s.lane i).stopPending = false) :
    ((s.admitAsMade (.lane i)).lane i).stopPending = false := by
  rcases State.admitAsMade_cases (.lane i) s with e | ⟨_, _, _, _, e⟩
  · rw [e, h]
  · rw [e, State.admit_lane]
    split
    · simp [Lane.settle, h]
    · exact h

/-- A lane without a stop order posts its event and stays in its state. -/
theorem State.postEvent_noStop {i : StreamId} {ev : LaneEvent} {x : Lane} {s : State} (hpart : s.port.part ≠ .detaching)
    (h : x.stopPending = false) : ((s.setLane i x).postEvent i ev).settleLane i =
      (s.setLane i { x with latch := some ev }).admitAsMade (.lane i) := by
  rw [State.postEvent_setLane, if_neg hpart]
  exact State.settleLane_of_noStop (State.admitAsMade_noStop (by simpa using h))

/-! ## SYNC and HEADER -/

/-- SYNC_SEND under R106's conditions. -/
theorem execSyncSend_sends {s : State} {i : StreamId} {p : LaneParams} (hpart : s.port.part = .attached)
    (hp : (s.lane i).params = some p) (hl : (s.lane i).latch = none) (hstop : (s.lane i).stopPending = false)
    (hst : (s.lane i).state = .syncing) (hout : (s.lane i).out = none) :
    exec (.syncSend i) s = .next (s.setLane i ((s.lane i).sending s.bands i (.sync p.chunkSize) 0#2)) := by
  have may : (s.lane i).maySync = true := by simp [Lane.maySync, hst, hout, hl, hstop]
  simp only [exec, execSyncSend, hp, hpart, may, and_self, if_true, State.mapLane_eq_setLane, Lane.send_eq_sending]
  rfl

/-- The slot BAND_START finds under R112's conditions. -/
theorem State.startableSlot_eq {s : State} {i : StreamId} (hpart : s.port.part = .attached)
    (hst : (s.lane i).state = .idle) (he : (s.stream i).emits = true) (hc : 1 ≤ (s.lane i).credit)
    (hl : (s.lane i).latch = none) (hstop : (s.lane i).stopPending = false) :
    s.startableSlot i = s.findSlot fun b =>
      b.stream == i && b.band == (s.stream i).nextEmit && (b.st == .closed || b.st == .sending) :=
  if_pos ⟨hpart, hst, he, hc, hl, hstop⟩

/-- The band of slot `k` starts: the slot is SENDING, and the lane sends its HEADER (R112, R113). -/
theorem State.startBand_eq {s : State} {i : StreamId} {k : SlotId} {b : BandSlot} {c : StreamCfg} {p : LaneParams}
    (hb : s.slot k = some b) (hc : (s.stream i).cfg = some c) (hp : (s.lane i).params = some p) :
    s.startBand i k =
      let t : State := { s with bands := { s.bands with slots := putAt s.bands.slots k (some { b with st := .sending }) } }
      t.setLane i (Lane.sending t.bands i (headerOf c b) (s.lane i).seq
        { s.lane i with
          state := .sending
          progress := some { band := b.band, slot := k, phase := .header, count := slotChunks c p b, next := 0 } }) := by
  have sent : s.mapSlot k (fun b => { b with st := .sending }) =
      { s with bands := { s.bands with slots := putAt s.bands.slots k (some { b with st := .sending }) } } := by
    rw [State.mapSlot, hb]
    rfl
  unfold State.startBand
  split
  · next b' c' p' hb' hc' hp' =>
    cases hb.symm.trans hb'
    cases hc.symm.trans hc'
    cases hp.symm.trans hp'
    simp only [sent, State.mapLane_eq_setLane, Lane.send_eq_sending]
    rfl
  · next none => exact absurd hp (none b c p hb hc)

/-- Settles O55: the conditions of SYNC_SEND and BAND_START hold, and the lane sends. -/
theorem lanesStartSyncAndBands : Obligations.LanesStartSyncAndBands := by
  intro s i p c k b hpart hp hl hstop
  refine ⟨fun hst hout => execSyncSend_sends hpart hp hl hstop hst hout, fun hst hc he hcfg hk hb => ?_⟩
  intro bytes chunks bands
  have finds : s.startableSlot i = some k := (State.startableSlot_eq hpart hst he hc hl hstop).trans hk
  simp only [exec, execBandStart, finds, State.startBand_eq hb hcfg hp]
  rfl

/-! ## The frames of a band -/

/-- A lane that emits a band gives it up and sends CANCEL for it (R131). -/
theorem State.startCancel_setLane {i : StreamId} {x : Lane} {g : Progress} (hg : x.progress = some g) (s : State) :
    (s.setLane i x).startCancel i = s.setLane i (Lane.sending s.bands i (.cancel g.band) x.seq
      { x.quiet with state := .cancelling, progress := none, resendCount := 0, waitCount := 0 }) := by
  simp only [State.startCancel, State.emittedBand, State.lane_setLane_same, hg, State.mapLane_setLane,
    Lane.send_eq_sending]
  rfl

/-- CHUNK `k` of the band in progress, of R115's length. -/
theorem State.sendChunk_setLane {i : StreamId} {x : Lane} {g : Progress} {p : LaneParams} {s : State} {c : StreamCfg}
    (hc : (s.stream i).cfg = some c) (hp : x.params = some p) (hg : x.progress = some g) (k : Nat) :
    (s.setLane i x).sendChunk i k = s.setLane i (Lane.sending s.bands i
      (.chunk k (chunkLength c.bandBytes p.chunkSize g.count k)) x.seq
      { x with progress := some { g with phase := .chunks, next := k } }) := by
  have cfg : ((s.setLane i x).stream i).cfg = some c := hc
  simp only [State.sendChunk, State.mapLane_setLane, cfg, hp, hg, Lane.send_eq_sending]
  rfl

/-- The TRAILER of the band in progress, with the count and the band CRC-32 (R98, R117). -/
theorem State.sendTrailer_setLane {i : StreamId} {x : Lane} {g : Progress} {s : State} {c : StreamCfg}
    (hc : (s.stream i).cfg = some c) (hg : x.progress = some g) :
    (s.setLane i x).sendTrailer i = s.setLane i (Lane.sending s.bands i
      (.trailer g.count (if g.count = 0 then 0#32
        else crc32 (bandRange s.bands.mem ((s.slot g.slot).elim [] BandSlot.pages) 0 c.bandBytes))) x.seq
      { x with progress := some { g with phase := .trailer, next := g.count } }) := by
  have cfg : ((s.setLane i x).stream i).cfg = some c := hc
  simp only [State.sendTrailer, State.mapLane_setLane, cfg, hg, Lane.send_eq_sending]
  rfl

/-! ## The ACCEPTs -/

/-- The lane of a begun exchange once its frame is accepted (R99, R101). -/
theorem Lane.accepted_eq {o : Outstanding} (h : o.frame.isSync = false) (l : Lane) :
    l.accepted o = { l.quiet with resendCount := 0, waitCount := 0, seq := l.seq + 1 } := by
  simp only [Lane.accepted, h]
  rfl

/-- Settles O56: what follows the ACCEPT of each frame but the TRAILER. -/
theorem acceptsAdvanceTheBand : Obligations.AcceptsAdvanceTheBand := by
  intro s i st o c p g hx hcfg l bytes chunk trailer cancel spent
  have taken : exec (.accept i o.seq) s = .next (s.acceptTaken i o) :=
    congrArg Host.Outcome.next (hx.reply (State.acceptTaken i))
  rw [taken]
  have accepted : o.frame.isSync = false → s.mapLane i (Lane.accepted o) = s.setLane i l := fun h => by
    rw [State.mapLane_eq_setLane, Lane.accepted_eq h]
  refine ⟨fun n hf hpart hstop => ?_, fun n hf => ?_, fun hp hg => ⟨?_, ?_⟩⟩
  · have idle : (s.mapLane i (Lane.accepted o)).mapLane i (fun l => { l with state := .idle, credit := 0 }) =
        s.setLane i { l with state := .idle, seq := 1#2, credit := 0 } := by
      rw [State.mapLane_eq_setLane i (Lane.accepted o), State.mapLane_setLane]
      simp only [Lane.accepted, hf]
      rfl
    simp only [State.acceptTaken, hf, idle]
    exact congrArg _ (State.postEvent_noStop hpart hstop)
  · simp only [State.acceptTaken, hf, State.mapLane_eq_setLane i (Lane.accepted o), State.mapLane_setLane,
      Lane.offline_accepted]
  · intro a1 a2 a3 a4 blank a6 a7 a8 hf
    have less : (s.mapLane i (Lane.accepted o)).mapLane i (fun l => { l with credit := l.credit - 1 }) =
        s.setLane i spent := by
      rw [accepted (by rw [hf]; rfl), State.mapLane_setLane]
      rfl
    simp only [State.acceptTaken, hf, less]
    refine ⟨fun hstop => ?_, fun hstop hb => ?_, fun hstop hb h0 => ?_⟩
    · rw [if_pos hstop, State.startCancel_setLane (x := spent) hg,
        Lane.quiet_eq_self (x := spent) rfl rfl fun t => Lane.quiet_tx]
    · rw [if_neg (by simp [hstop]), if_neg (by simp [hb]), State.sendChunk_setLane (x := spent) hcfg hp hg]
      rfl
    · rw [if_neg (by simp [hstop]), if_pos hb, State.sendTrailer_setLane (x := spent) hcfg hg, if_pos h0, h0]
      simp only [trailer, ← h0]
  · intro k len hf
    simp only [State.acceptTaken, hf, accepted (show o.frame.isSync = false by rw [hf]; rfl), hg, Option.elim]
    refine ⟨fun hstop => ?_, fun hstop hk => ?_, fun hstop hk h0 => ?_⟩
    · rw [if_pos hstop, State.startCancel_setLane (x := l) hg,
        Lane.quiet_eq_self (x := l) rfl rfl fun t => Lane.quiet_tx]
    · rw [if_neg (by simp [hstop]), if_pos hk, State.sendChunk_setLane (x := l) hcfg hp hg]
      rfl
    · rw [if_neg (by simp [hstop]), if_neg (by omega), State.sendTrailer_setLane (x := l) hcfg hg, if_neg h0]
      rfl

end Sys2Proof.Machine
end

section
/-!
The frames of the lane link: their checks, the fields of those the part sends, the reading of those it receives (R95 to R98,
R177).
-/

namespace Sys2Proof.Machine

/-! ## The CRC-16 over a frame and its check -/

/-- While no bit leaves the register, `n` bits of the CRC-16 are a shift (R95). -/
theorem crc16Bit_repeat_eq_shift (n : Nat) {r : BitVec 16} (h : r.toNat * 2 ^ n < 2 ^ 16) :
    Nat.repeat crc16Bit n r = r <<< n := by
  induction n with
  | zero => simp [Nat.repeat]
  | succ n ih =>
    have grows : r.toNat * 2 ^ (n + 1) = r.toNat * 2 ^ n * 2 := by rw [pow_succ, mul_assoc]
    have shifted : (r <<< n).toNat = r.toNat * 2 ^ n := by
      rw [BitVec.toNat_shiftLeft, Nat.shiftLeft_eq, Nat.mod_eq_of_lt (by omega)]
    have clear : (r <<< n).msb = false := by
      rw [BitVec.msb_eq_decide, shifted, decide_eq_false_iff_not]
      omega
    rw [Nat.repeat, ih (by omega), crc16Bit, clear, if_neg Bool.false_ne_true, ← BitVec.shiftLeft_add]

/-- The register's upper byte, taken as input, leaves the lower byte in its place (R95). -/
theorem crc16Byte_upper (r : BitVec 16) : crc16Byte r (r.extractLsb' 8 8) = (r.extractLsb' 0 8).setWidth 16 <<< 8 := by
  have lower : r ^^^ (r.extractLsb' 8 8).setWidth 16 <<< 8 = (r.extractLsb' 0 8).setWidth 16 := by
    ext k hk
    by_cases h : k < 8
    · simp [h, hk]
    · have place : 8 + (k - 8) = k := by omega
      have inside : k - 8 < 8 := by omega
      simp [h, place, inside, BitVec.getLsbD_eq_getElem hk]
  have small : ((r.extractLsb' 0 8).setWidth 16).toNat * 2 ^ 8 < 2 ^ 16 := by
    have := (r.extractLsb' 0 8).isLt
    rw [BitVec.toNat_setWidth, Nat.mod_eq_of_lt (by omega)]
    omega
  rw [crc16Byte, lower, crc16Bit_repeat_eq_shift 8 small]

/-- A byte that equals the register's upper one, over an empty lower one, empties the register (R95). -/
theorem crc16Byte_last (b : Byte) : crc16Byte (b.setWidth 16 <<< 8) b = 0#16 := by
  rw [crc16Byte, BitVec.xor_self, crc16Bit_repeat_eq_shift 8 (by decide)]
  decide

theorem crc16_append (bs cs : List Byte) : crc16 (bs ++ cs) = cs.foldl crc16Byte (crc16 bs) := List.foldl_append

/-- The two bytes of a check, most significant first (R177). -/
theorem beBytes_two (n : Nat) : beBytes 2 n = [BitVec.ofNat 8 (n / 256), BitVec.ofNat 8 n] := by
  simp [beBytes, leBytes, List.range_succ, Nat.shiftRight_eq_div_pow]

theorem beBytes_four (n : Nat) : beBytes 4 n =
    [BitVec.ofNat 8 (n / 65536 / 256), BitVec.ofNat 8 (n / 65536)] ++ [BitVec.ofNat 8 (n / 256), BitVec.ofNat 8 n] := by
  simp [beBytes, leBytes, List.range_succ, Nat.shiftRight_eq_div_pow, Nat.div_div_eq_div_mul]

/-- The register over a body and its check ends at 0 (R95). -/
theorem crc16_withCheck (body : List Byte) : crc16 (withCheck body) = 0#16 := by
  have upper : BitVec.ofNat 8 ((crc16 body).toNat / 256) = (crc16 body).extractLsb' 8 8 := by
    rw [BitVec.extractLsb', Nat.shiftRight_eq_div_pow]
  have lower : BitVec.ofNat 8 (crc16 body).toNat = (crc16 body).extractLsb' 0 8 := rfl
  rw [withCheck, crc16_append, beBytes_two, upper, lower, List.foldl_cons, crc16Byte_upper, List.foldl_cons, crc16Byte_last,
    List.foldl_nil]

/-! ## The registers of the two checks, bit by bit -/

/-- The CRC-16 register starts at 0 and takes a byte's bits from the upper end (R95). -/
theorem crc16_snoc (bs : List Byte) (b : Byte) : crc16 (bs ++ [b]) =
    Nat.repeat (fun r => if r.getLsbD 15 then (r <<< 1) ^^^ 0x1021#16 else r <<< 1) 8 (crc16 bs ^^^ (b ++ 0#8)) := by
  have bit : crc16Bit = fun r => if r.getLsbD 15 then (r <<< 1) ^^^ 0x1021#16 else r <<< 1 := by
    funext r
    rw [crc16Bit, BitVec.msb_eq_getLsbD_last]
  have upper : (b.setWidth 16 <<< 8 : BitVec 16) = b ++ 0#8 := by
    have small := b.isLt
    refine BitVec.eq_of_toNat_eq ?_
    rw [BitVec.toNat_append]
    simp only [BitVec.toNat_shiftLeft, BitVec.toNat_setWidth, BitVec.toNat_ofNat, Nat.shiftLeft_eq,
      Nat.zero_mod, Nat.or_zero]
    omega
  rw [crc16_append, List.foldl_cons, List.foldl_nil, crc16Byte, bit, upper]

/-- The band CRC-32 register takes a byte's bits from the lower end, and the check is its complement (R98). -/
theorem crc32_snoc (bs : List Byte) (b : Byte) : ~~~ (crc32 (bs ++ [b])) =
    Nat.repeat (fun r => if r.getLsbD 0 then (r >>> 1) ^^^ 0xEDB88320#32 else r >>> 1) 8
      (~~~ (crc32 bs) ^^^ b.setWidth 32) := by
  simp only [crc32, BitVec.not_not, List.foldl_append, List.foldl_cons, List.foldl_nil]
  rfl

/-! ## Received frames -/

/-- Everything that fields can be read as (R97, R177). -/
theorem headFields_cases {bs : List Byte} {f : HeadFrame} (h : headFields bs = some f) :
    (byteAt bs 0 = 0x81#8 ∧ bs.length = 4 ∧ f = .accept ((byteAt bs 1).setWidth 2)) ∨
    (byteAt bs 0 = 0x82#8 ∧ bs.length = 4 ∧ f = .wait ((byteAt bs 1).setWidth 2)) ∨
    (byteAt bs 0 = 0x83#8 ∧ bs.length = 5 ∧ (byteAt bs 2).toNat ≤ 15 ∧
      f = .refuse ((byteAt bs 1).setWidth 2) ((byteAt bs 2).setWidth 4)) ∨
    (byteAt bs 0 = 0x84#8 ∧ bs.length = 4 ∧ byteAt bs 1 ≠ 0#8 ∧ f = .credit (byteAt bs 1)) := by
  unfold headFields at h
  split_ifs at h with accept wait refuse credit <;> cases h
  · exact .inl ⟨accept.1, accept.2, rfl⟩
  · exact .inr (.inl ⟨wait.1, wait.2, rfl⟩)
  · exact .inr (.inr (.inl ⟨refuse.1, refuse.2.1, refuse.2.2, rfl⟩))
  · exact .inr (.inr (.inr ⟨credit.1, credit.2.1, credit.2.2, rfl⟩))

/-- A good frame carries its check: what is not a body with its check is bad (R95, R97). -/
theorem parseHead_some {bs : List Byte} {f : HeadFrame} (h : parseHead bs = some f) :
    withCheck (bs.take (bs.length - 2)) = bs ∧ headFields bs = some f := by
  unfold parseHead at h
  split at h
  · exact ⟨‹_›, h⟩
  · cases h

/-- A frame of the head that is read as a CREDIT has a grant other than 0 (R97). -/
theorem parseHead_credit {bs : List Byte} {grant : Byte} (h : parseHead bs = some (.credit grant)) : grant ≠ 0#8 := by
  rcases headFields_cases (parseHead_some h).2 with ⟨_, _, e⟩ | ⟨_, _, e⟩ | ⟨_, _, _, e⟩ | ⟨_, _, hx, e⟩ <;> cases e
  exact hx

/-- A body with its check is read by its fields. -/
theorem parseHead_withCheck (body : List Byte) : parseHead (withCheck body) = headFields (withCheck body) := by
  have len : (withCheck body).length - 2 = body.length := by simp [withCheck, beBytes_two]
  rw [parseHead, len]
  simp [withCheck]

/-- The first bytes of bytes as long as that. -/
theorem take_eq_bytes (bs : List Byte) {n : Nat} (h : n ≤ bs.length) : bs.take n = (List.range n).map (byteAt bs) := by
  refine List.ext_getElem (by simp [h]) fun k h1 h2 => ?_
  have hk : k < bs.length := by simp at h1; omega
  simp [byteAt, hk]

/-- The body of a good frame: one of the four that a head sends (R97, R177). -/
theorem parseHead_body {bs : List Byte} (h : parseHead bs ≠ none) : ∃ body, bs = withCheck body ∧
    ((∃ q, body = [0x81#8, q]) ∨ (∃ q, body = [0x82#8, q]) ∨ (∃ q x : Byte, body = [0x83#8, q, x] ∧ x.toNat ≤ 15) ∨
      ∃ x : Byte, body = [0x84#8, x] ∧ x ≠ 0#8) := by
  obtain ⟨f, hf⟩ := Option.ne_none_iff_exists'.1 h
  obtain ⟨check, fields⟩ := parseHead_some hf
  refine ⟨_, check.symm, ?_⟩
  rw [take_eq_bytes bs (Nat.sub_le _ _)]
  rcases headFields_cases fields with ⟨h0, hlen, _⟩ | ⟨h0, hlen, _⟩ | ⟨h0, hlen, hx, _⟩ | ⟨h0, hlen, hx, _⟩
  · exact .inl ⟨byteAt bs 1, by simp [hlen, List.range_succ, h0]⟩
  · exact .inr (.inl ⟨byteAt bs 1, by simp [hlen, List.range_succ, h0]⟩)
  · exact .inr (.inr (.inl ⟨byteAt bs 1, byteAt bs 2, by simp [hlen, List.range_succ, h0], hx⟩))
  · exact .inr (.inr (.inr ⟨byteAt bs 1, by simp [hlen, List.range_succ, h0], hx⟩))

/-! ## Sent frames -/

/-- The flags of a HEADER as bits 0, 1 and 2 (R177). -/
theorem headerFlags_eq (blank damaged autoClosed : Bool) :
    BitVec.ofNat 8 (blank.toNat + 2 * damaged.toNat + 4 * autoClosed.toNat) =
      (if blank then 1#8 else 0#8) ||| (if damaged then 2#8 else 0#8) ||| (if autoClosed then 4#8 else 0#8) := by
  revert blank damaged autoClosed
  decide

/-- Settles O13: the registers, the frames sent, and the frames received. -/
theorem framesCarryTheirCheck : Obligations.FramesCarryTheirCheck := by
  unfold Obligations.FramesCarryTheirCheck
  intro be2 be4 checked
  have be2_eq : ∀ n, beBytes 2 n = be2 n := beBytes_two
  have be4_eq : ∀ n, beBytes 4 n = be4 n := beBytes_four
  have checked_eq : ∀ body, withCheck body = checked body := fun body => by rw [withCheck, be2_eq]
  refine ⟨⟨rfl, crc16_snoc⟩, ⟨by decide, crc32_snoc⟩, fun b i l o => ?_, fun bs hcrc => ?_, fun bs h => ?_, fun q x => ?_⟩
  · intro q
    refine ⟨crc16_withCheck _, fun n hf _ => ?_, fun band lines lineBytes depth blank damaged autoClosed bytes hf => ?_,
      fun k n g p slot hf hg hp hslot => ?_, fun n crc hf => ?_, fun band hf => ?_⟩
    · rw [frameBytes, checked_eq, hf]
      rfl
    · simp only [frameBytes, checked_eq, hf, be2_eq, be4_eq, headerFlags_eq]
      rfl
    · simp only [frameBytes, checked_eq, hf, be2_eq, hg, hp, hslot, Option.bind_some, Option.elim]
      rfl
    · simp only [frameBytes, checked_eq, hf, be2_eq, be4_eq]
      rfl
    · simp only [frameBytes, checked_eq, hf, be2_eq]
      rfl
  · by_contra h
    obtain ⟨f, hf⟩ := Option.ne_none_iff_exists'.1 h
    rw [← (parseHead_some hf).1, crc16_withCheck] at hcrc
    exact hcrc rfl
  · obtain ⟨body, hbody, types⟩ := parseHead_body h
    exact ⟨body, hbody.trans (checked_eq body), types⟩
  · simp only [← checked_eq, parseHead_withCheck]
    refine ⟨?_, ?_, ?_, ?_⟩ <;> simp [headFields, withCheck, beBytes_two, byteAt]

end Sys2Proof.Machine
end

section
/-!
WAITs, REFUSEs, CREDITs and stray frames in the words of the statements (R97, R100, R103, R104, R109, R124,
R125, R136, R137).
-/

namespace Sys2Proof.Machine

/-! ## WAIT and REFUSE -/

/-- A lane becomes LOST and posts LANE_LOST with the band of its progress (R125). -/
theorem State.laneLost_setLane {i : StreamId} {x : Lane} {g : Progress} (hg : x.progress = some g) (s : State) :
    (s.setLane i x).laneLost i = ((s.setLane i { x.quiet with state := .lost, progress := none }).postEvent i
      (.lost g.band)).settleLane i := by
  simp only [State.laneLost, State.emittedBand, State.lane_setLane_same, hg, State.mapLane_setLane]
  rfl

/-- A frame other than a CANCEL or a SYNC that is exhausted loses the lane (R102, R103). -/
theorem State.exhausted_eq_laneLost {o : Outstanding} (hc : ∀ n, o.frame ≠ .cancel n) (i : StreamId) (s : State) :
    s.exhausted i o = s.laneLost i := by
  unfold State.exhausted
  split
  · next n hf => exact absurd hf (hc n)
  all_goals rfl

theorem State.exhausted_cancel {o : Outstanding} {n : Band} (hf : o.frame = .cancel n) (i : StreamId) (s : State) :
    s.exhausted i o = s.mapLane i Lane.goOffline := by
  simp only [State.exhausted, hf]

/-- A REFUSE of a frame other than a CANCEL or a SYNC (R104, R124). -/
theorem State.refuseTaken_eq_laneHalted {o : Outstanding} (hc : ∀ n, o.frame ≠ .cancel n) (hs : o.frame.isSync = false)
    (i : StreamId) (reason : BitVec 4) (s : State) :
    s.refuseTaken i reason o = s.laneHalted i reason (some (s.emittedBand i)) := by
  unfold State.refuseTaken
  split
  · next n hf => exact absurd hf (hc n)
  · next n hf => simp [hf, Frame.isSync] at hs
  all_goals rfl

/-- A WAIT of a counted frame within the limit pauses it (R103). -/
theorem State.waitTaken_within {i : StreamId} {o : Outstanding} {p : LaneParams} {s : State}
    (hp : (s.lane i).params = some p) (hs : o.frame.isSync = false) (h : (s.lane i).waitCount + 1 ≤ p.waitLimit) :
    s.waitTaken i o = s.setLane i
      { (s.lane i).quiet with
        out := some { o with paused := true, timer := false }, waitCount := (s.lane i).waitCount + 1 } := by
  have limit : (s.lane i).params.elim 0 LaneParams.waitLimit = p.waitLimit := by rw [hp]; rfl
  simp only [State.waitTaken, hs, limit, Bool.false_eq_true, if_false, if_neg (Nat.not_lt.2 h),
    State.mapLane_eq_setLane i (fun l => { l with waitCount := l.waitCount + 1 }), State.mapLane_setLane]
  rfl

/-- A WAIT of a counted frame beyond the limit exhausts it (R103). -/
theorem State.waitTaken_beyond {i : StreamId} {o : Outstanding} {p : LaneParams} {s : State}
    (hp : (s.lane i).params = some p) (hs : o.frame.isSync = false) (h : p.waitLimit < (s.lane i).waitCount + 1) :
    s.waitTaken i o = (s.setLane i { s.lane i with waitCount := (s.lane i).waitCount + 1 }).exhausted i o := by
  have limit : (s.lane i).params.elim 0 LaneParams.waitLimit = p.waitLimit := by rw [hp]; rfl
  simp only [State.waitTaken, hs, limit, Bool.false_eq_true, if_false, if_pos h]
  rfl

/-- Settles O58: each reply to each kind of frame. -/
theorem waitsPauseAndRefusesHalt : Obligations.WaitsPauseAndRefusesHalt := by
  intro s i st o p g reason hx hp l count posts paused
  have waits : exec (.wait i o.seq) s = .next (s.waitTaken i o) :=
    congrArg Host.Outcome.next (hx.reply (State.waitTaken i))
  have refuses : exec (.refuse i o.seq reason) s = .next (s.refuseTaken i reason o) :=
    congrArg Host.Outcome.next (hx.reply (State.refuseTaken i reason))
  have posted : ∀ (x : Lane) (ev : LaneEvent), ((s.setLane i x).postEvent i ev).settleLane i = posts x ev :=
    fun x ev => congrArg (State.settleLane i) (State.postEvent_setLane i ev x s)
  have halts : ∀ band, s.laneHalted i reason band =
      posts { l with state := .halted, progress := none } (.halted reason band) := fun band => posted _ _
  rw [waits, refuses]
  refine ⟨fun n hf => ⟨?_, ?_⟩, fun hs hcount => ?_, fun n hf => ⟨fun hcount => ?_, ?_⟩,
    fun hc hs hg => ⟨fun hcount => ?_, ?_⟩⟩
  · have hs : o.frame.isSync = true := by rw [hf]; rfl
    rw [State.waitTaken, if_pos hs]
    rfl
  · simp only [State.refuseTaken, hf, halts]
  · exact congrArg _ (State.waitTaken_within hp hs hcount)
  · rw [State.waitTaken_beyond hp (by rw [hf]; rfl) hcount, State.exhausted_cancel hf, State.mapLane_setLane]
    rfl
  · simp only [State.refuseTaken, hf]
    rfl
  · rw [State.waitTaken_beyond hp hs hcount, State.exhausted_eq_laneLost hc, State.laneLost_setLane (by exact hg), posted]
    rfl
  · rw [State.refuseTaken_eq_laneHalted hc hs, halts]
    simp [State.emittedBand, hg]

/-! ## Stale replies, CREDITs and bad frames -/

/-- The stale-reply counter of a configured stream's lane rises, to 65535 at most (R136, R137). -/
theorem State.countStale_eq (i : StreamId) (s : State) : s.countStale i =
    if (s.stream i).st == .unconfigured then s
    else s.setLane i { s.lane i with stale := min ((s.lane i).stale + 1) 65535 } := by
  cases h : (s.stream i).st == .unconfigured <;> simp only [State.countStale, State.counting, bne, h] <;> rfl

/-- The bad-frame counter of a configured stream's lane rises, to 65535 at most (R136, R137). -/
theorem State.countBad_eq (i : StreamId) (s : State) : s.countBad i =
    if (s.stream i).st == .unconfigured then s
    else s.setLane i { s.lane i with bad := min ((s.lane i).bad + 1) 65535 } := by
  cases h : (s.stream i).st == .unconfigured <;> simp only [State.countBad, State.counting, bne, h] <;> rfl

/-- A reply that no outstanding frame carries the seq of is stale (R100). -/
theorem State.reply_stale {i : StreamId} {seq : Seq} {s : State}
    (h : ∀ o, (s.lane i).out = some o → o.begun = true → o.seq ≠ seq) (taken : Outstanding → State → State) :
    s.reply i seq taken = s.countStale i := by
  unfold State.reply
  split
  · rfl
  · next o ho => exact if_neg fun hseq => h o ho hseq.1 hseq.2

/-- Settles O59: stale replies, CREDITs, and frames that are bad or only called so. -/
theorem creditsAndStrayFrames : Obligations.CreditsAndStrayFrames := by
  intro s i seq reason grant bytes off stale bad
  have counts : s.countStale i = stale := State.countStale_eq i s
  have countsBad : s.countBad i = bad := State.countBad_eq i s
  have credited : grant ≠ 0#8 → exec (.credit i grant) s = .next (s.takeCredit i grant) := fun hg =>
    congrArg Host.Outcome.next (if_neg hg)
  refine ⟨fun h => ⟨?_, ?_, ?_⟩, fun hg => ⟨fun hst => ?_, fun hoff hsync => ?_⟩, ?_, fun hb => ?_,
    fun hb => ?_, fun hb => ?_, fun hb => ?_, fun hb => ?_⟩
  · exact congrArg _ ((State.reply_stale h _).trans counts)
  · exact congrArg _ ((State.reply_stale h _).trans counts)
  · exact congrArg _ ((State.reply_stale h _).trans counts)
  · rw [credited hg, State.takeCredit, if_pos hst, counts]
  · rw [credited hg, State.takeCredit, if_neg (not_or.2 ⟨hoff, hsync⟩)]
    rfl
  · rw [← countsBad]
    rfl
  · simp only [exec, execBadFrame, hb, countsBad]
  · simp only [exec, execBadFrame, hb]
    rfl
  · simp only [exec, execBadFrame, hb]
    rfl
  · simp only [exec, execBadFrame, hb]
    rfl
  · rw [credited (parseHead_credit hb)]
    simp only [exec, execBadFrame, hb]

end Sys2Proof.Machine
end

section
/-!
The end of a transmission, the lane timers, and a link loss in the words of the statements (R94, R102, R103, R121, R122,
R171).
-/

namespace Sys2Proof.Machine

/-! ## Transmissions and repeats -/

/-- The lane with the frame of the exchange `o` on the medium once more, from its beginning (R94, R101, R102). -/
def Lane.repeated (b : Bands) (i : StreamId) (o : Outstanding) (x : Lane) : Lane :=
  let o' : Outstanding := { o with begun := true, paused := false, timer := false }
  { x with out := some o', tx := some { bytes := frameBytes b i x o', counts := true }, txWaiting := false }

/-- A frame is transmitted at once when nothing is under way (R94). -/
theorem Lane.transmit_eq_repeated {l : Lane} {o : Outstanding} (ho : l.out = some o) (htx : l.tx = none) (b : Bands)
    (i : StreamId) : l.transmit b i = l.repeated b i o := by
  simp only [Lane.transmit, ho, htx, Option.isNone, Bool.or_true]
  rfl

/-- The end of a transmission starts the reply timer (R102). -/
theorem Lane.transmissionEnds_counted {l : Lane} {o : Outstanding} {t : Transmission} (htx : l.tx = some t)
    (hw : l.txWaiting = false) (ho : l.out = some o) (hc : t.counts = true) (b : Bands) (i : StreamId) :
    l.transmissionEnds b i = { l with tx := none, out := some { o with timer := true } } := by
  simp [Lane.transmissionEnds, htx, hw, ho, hc]

/-- The end of a transmission whose frame is no longer outstanding starts no timer (R102). -/
theorem Lane.transmissionEnds_uncounted {l : Lane} {t : Transmission} (htx : l.tx = some t) (hw : l.txWaiting = false)
    (hc : t.counts = false) (b : Bands) (i : StreamId) : l.transmissionEnds b i = { l with tx := none } := by
  simp [Lane.transmissionEnds, htx, hw, hc]

/-- The frame that waits begins as the transmission under way ends (R101, log 15). -/
theorem Lane.transmissionEnds_waiting {l : Lane} {o : Outstanding} {t : Transmission} (htx : l.tx = some t)
    (hw : l.txWaiting = true) (ho : l.out = some o) (b : Bands) (i : StreamId) :
    l.transmissionEnds b i = l.repeated b i o := by
  simp only [Lane.transmissionEnds, htx, hw, if_true]
  exact Lane.transmit_eq_repeated (l := { l with tx := none, txWaiting := false }) ho rfl b i

/-- The lane after a frame is sent again at an expiry of the reply timer, counted where counters count (R102, R137). -/
theorem State.resend_eq {i : StreamId} {s : State} {x : Lane} {o : Outstanding} (ho : x.out = some o) (htx : x.tx = none) :
    (s.setLane i x).resend i =
      s.setLane i (if (s.stream i).st = .unconfigured then x.repeated s.bands i o
        else { x.repeated s.bands i o with resent := min (x.resent + 1) 65535 }) := by
  have again : (s.setLane i x).mapLane i (fun l => l.transmit (s.setLane i x).bands i) =
      s.setLane i (x.repeated s.bands i o) := by
    rw [State.mapLane_setLane, Lane.transmit_eq_repeated ho htx]
    rfl
  have stream : (s.setLane i (x.repeated s.bands i o)).stream i = s.stream i := rfl
  rw [State.resend, again, State.countResend, State.counting, stream]
  by_cases h : (s.stream i).st = .unconfigured
  · simp [h]
  · simp only [h, bne_iff_ne, ne_eq, not_false_eq_true, if_true, if_false, State.mapLane_setLane]
    rfl

/-! ## The reply timer -/

/-- An expiry of the running reply timer (R102). -/
theorem execReplyTimerExpiry_runs {i : StreamId} {s : State} {o : Outstanding} (ho : (s.lane i).out = some o)
    (hp : o.paused = false) (ht : o.timer = true) : exec (.replyTimerExpiry i) s = .next (s.replyExpired i o) := by
  simp only [exec, execReplyTimerExpiry, ho, hp, ht, and_self, if_true]

/-- The reply timer of a counted frame expires in a lane that does not give it up: the repeat is counted against the limit
(R102). -/
theorem State.replyExpired_counted {i : StreamId} {s : State} {o : Outstanding} {p : LaneParams}
    (hp : (s.lane i).params = some p) (hs : o.frame.isSync = false)
    (h : (s.lane i).state ≠ .sending ∨ (s.lane i).stopPending = false) : s.replyExpired i o =
      if p.resendLimit < (s.lane i).resendCount + 1 then
        (s.setLane i { s.lane i with resendCount := (s.lane i).resendCount + 1 }).exhausted i o
      else (s.setLane i { s.lane i with resendCount := (s.lane i).resendCount + 1 }).resend i := by
  have limit : (s.lane i).params.elim 0 LaneParams.resendLimit = p.resendLimit := by rw [hp]; rfl
  have goesOn : ((s.lane i).stopPending && (s.lane i).state == .sending) = false := by
    rcases h with h | h <;> simp [h]
  simp only [State.replyExpired, hs, goesOn, limit, Bool.false_eq_true, if_false]
  rfl

/-- A SENDING lane under a stop order gives its frame up at the reply timer's expiry and sends CANCEL (R130, R131). -/
theorem State.replyExpired_cancels {i : StreamId} {s : State} {o : Outstanding} {g : Progress}
    (hs : o.frame.isSync = false) (hst : (s.lane i).state = .sending) (hstop : (s.lane i).stopPending = true)
    (hg : (s.lane i).progress = some g) : s.replyExpired i o =
      s.setLane i (Lane.sending s.bands i (.cancel g.band) ((s.lane i).seq + 1)
        { (s.lane i).quiet with
          state := .cancelling, progress := none, resendCount := 0, waitCount := 0, seq := (s.lane i).seq + 1 }) := by
  have givesUp : ((s.lane i).stopPending && (s.lane i).state == .sending) = true := by simp [hst, hstop]
  simp only [State.replyExpired, hs, givesUp, Bool.false_eq_true, if_false, if_true]
  exact State.startCancel_setLane (x := { s.lane i with seq := (s.lane i).seq + 1 }) hg s

/-! ## The starve timer -/

/-- The conditions of R121, all together. -/
theorem State.starveArmed_iff {s : State} {i : StreamId} : s.starveArmed i = true ↔
    ((s.lane i).state = .idle ∧ 1 ≤ (s.lane i).credit) ∧
    ((s.stream i).st = .running ∨ (s.stream i).st = .draining ∨ (s.stream i).st = .halted) ∧
    (∀ k b, s.slot k = some b → b.stream = i → b.band = (s.stream i).nextEmit → b.st ≠ .closed ∧ b.st ≠ .sending) ∧
    (∃ q, (s.lane i).params = some q ∧ q.starveLimit ≠ 0) ∧ (s.lane i).starved ≠ some (s.stream i).nextEmit ∧
    (s.lane i).latch = none := by
  have limit : (s.lane i).params.elim 0 LaneParams.starveLimit ≠ 0 ↔
      ∃ q, (s.lane i).params = some q ∧ q.starveLimit ≠ 0 := by
    cases (s.lane i).params <;> simp
  have slots : (s.findSlot fun b =>
        b.stream == i && b.band == (s.stream i).nextEmit && (b.st == .closed || b.st == .sending)) = none ↔ ∀ k b, s.slot k = some b → b.stream = i → b.band = (s.stream i).nextEmit →
        b.st ≠ .closed ∧ b.st ≠ .sending := by
    rw [State.findSlot_none]
    simp
  simp only [State.starveArmed, Bool.and_eq_true, beq_iff_eq, bne_iff_ne, decide_eq_true_eq, Option.isNone_iff_eq_none,
    Stream.emits_iff, limit, slots, and_assoc]

/-- A lane whose event is offered: the event waits, or its admission empties the latch and lets a stop order settle (R129,
R133). -/
theorem State.admitAsMade_lane_cases (i : StreamId) (s : State) : (s.admitAsMade (.lane i)).lane i = s.lane i ∨
    (s.admitAsMade (.lane i)).lane i = ({ s.lane i with latch := none, beforeStop := false } : Lane).settle := by
  rcases State.admitAsMade_cases (.lane i) s with e | ⟨_, _, _, _, e⟩
  · exact .inl (by rw [e])
  · rw [e, State.admit_lane]
    split
    · exact .inr rfl
    · exact .inl rfl

/-- A lane keeps its starved band as it offers its event, but for a stop order that takes it to OFFLINE (R121, R129). -/
theorem State.admitAsMade_starved (i : StreamId) (s : State) :
    ((s.admitAsMade (.lane i)).lane i).starved = (s.lane i).starved ∨
      ((s.lane i).stopPending = true ∧ ((s.admitAsMade (.lane i)).lane i).state = .offline) := by
  rcases State.admitAsMade_lane_cases i s with e | e <;> rw [e]
  · exact .inl rfl
  · unfold Lane.settle
    split
    · next h => exact .inr ⟨by simp only [Bool.and_eq_true] at h; exact h.1.1.1, rfl⟩
    · exact .inl rfl

/-- The part after STARVED is posted for next-emit (R122). -/
def State.starves (i : StreamId) (s : State) : State :=
  (s.setLane i { s.lane i with
    starved := some (s.stream i).nextEmit, latch := some (.starved (s.stream i).nextEmit) }).admitAsMade (.lane i)

theorem execStarveTimerExpiry_posts {i : StreamId} {s : State} (h : s.starveArmed i = true)
    (hpart : s.port.part ≠ .detaching) : exec (.starveTimerExpiry i) s = .next (s.starves i) := by
  simp only [exec, execStarveTimerExpiry, h, if_true, State.mapLane_eq_setLane, State.postEvent_setLane, if_neg hpart]
  rfl

/-- The starve timer is not armed again for the band that starved (R121, R122). -/
theorem State.starves_not_armed (i : StreamId) (s : State) : (s.starves i).starveArmed i = false := by
  rw [Bool.eq_false_iff]
  intro armed
  obtain ⟨⟨idle, _⟩, _, _, _, fresh, _⟩ := State.starveArmed_iff.1 armed
  have next : (s.starves i).stream i = s.stream i := State.stream_congr (State.admitAsMade_lane_frame i _).2.2.1 i
  rcases State.admitAsMade_starved i (s.setLane i { s.lane i with
    starved := some (s.stream i).nextEmit, latch := some (.starved (s.stream i).nextEmit) }) with e | ⟨_, e⟩
  · refine fresh ?_
    rw [next]
    exact e.trans (by simp)
  · cases idle.symm.trans e

/-- Without a stop order the lane keeps the starved band (R122). -/
theorem State.starves_starved {i : StreamId} {s : State} (h : (s.lane i).stopPending = false) :
    ((s.starves i).lane i).starved = some (s.stream i).nextEmit := by
  rcases State.admitAsMade_starved i (s.setLane i { s.lane i with
    starved := some (s.stream i).nextEmit, latch := some (.starved (s.stream i).nextEmit) }) with e | ⟨stop, _⟩
  · exact e.trans (by simp)
  · simp [h] at stop

/-- Settles O60: the end of a transmission and the three timers. -/
theorem timersRepeatOrGiveUp : Obligations.TimersRepeatOrGiveUp := by
  intro s i o t p g l again counted
  have ends : exec (.frameSent i) s = .next (s.setLane i (l.transmissionEnds s.bands i)) := rfl
  refine ⟨fun htx hw ho hc => ?_, fun htx hw hc => ?_, fun htx hw ho => ?_, fun ho hb hp htx => ?_,
    fun ho hb hp ht htx hparams => ?_, State.starveArmed_iff, fun h => ?_, fun h hpart => ?_⟩
  · exact ends.trans (by rw [Lane.transmissionEnds_counted htx hw ho hc])
  · exact ends.trans (by rw [Lane.transmissionEnds_uncounted htx hw hc])
  · exact ends.trans (by rw [Lane.transmissionEnds_waiting htx hw ho]; rfl)
  · simp only [exec, execWaitTimerExpiry, show (s.lane i).out = some o from ho, hp, if_true, State.mapLane_eq_setLane]
    rw [Lane.transmit_eq_repeated ho htx]
    rfl
  · rw [execReplyTimerExpiry_runs ho hp ht]
    have resends : ∀ x : Lane, x.out = some o → x.tx = none →
        (s.setLane i x).resend i = s.setLane i (counted (again x)) := fun x hx hxt => State.resend_eq hx hxt
    refine ⟨fun hs => ?_, fun hs hst hg => ?_, fun hs hst hlim => ?_,
      fun hlim => ⟨fun n hf hst => ?_, fun hs hc hstop hpart hg => ?_⟩⟩
    · rw [State.replyExpired, if_pos hs, ← resends l ho htx, State.setLane_self]
    · rw [State.replyExpired_cancels hs hst.1 hst.2 hg]
    · rw [State.replyExpired_counted hparams hs hst, if_neg (Nat.not_lt.2 hlim), resends _ (by exact ho) (by exact htx)]
    · have other : (s.lane i).state ≠ .sending := by rw [show (s.lane i).state = .cancelling from hst]; decide
      rw [State.replyExpired_counted hparams (by rw [hf]; rfl) (.inl other), if_pos hlim, State.exhausted_cancel hf,
        State.mapLane_setLane]
      rfl
    · rw [State.replyExpired_counted hparams hs (.inr hstop), if_pos hlim, State.exhausted_eq_laneLost hc,
        State.laneLost_setLane (by exact hg), State.postEvent_noStop hpart (by exact hstop)]
      rfl
  · simp only [exec, execStarveTimerExpiry, h, Bool.false_eq_true, if_false]
  · exact ⟨execStarveTimerExpiry_posts h hpart, s.starves_not_armed i, State.starves_starved⟩

/-! ## Link loss -/

/-- A part whose link is down puts nothing on it as causes are set (R170). -/
theorem Port.raise_sent_of_down (c : Causes) {p : Port} (h : p.linkUp = false) : (p.raise c).sent = p.sent := by
  simp only [Port.raise, Port.setEvents, Port.askMessage]
  split_ifs <;> simp_all

/-- Settles O27: a link loss in ATTACHED and in every other part state. -/
theorem linkLossFreezesAnAttachedPart : Obligations.LinkLossFreezesAnAttachedPart := by
  intro s lost
  let t : State := { s with port := { s.port with linkUp := false, outstanding := lost } }
  refine ⟨fun hpart => congrArg Host.Outcome.next (if_neg hpart), fun hpart => ?_⟩
  obtain ⟨fatal, code, cause, out, waits⟩ := State.becomeFatal_port .linkLoss t
  refine ⟨t.becomeFatal .linkLoss, congrArg Host.Outcome.next (if_pos hpart), fatal, code, cause, out,
    Port.raise_sent_of_down _ rfl, waits, rfl, rfl, rfl, rfl, rfl, rfl, rfl, fun i => ?_⟩
  rw [State.becomeFatal_lane]
  exact ⟨rfl, rfl, rfl, rfl, rfl, rfl, rfl⟩

end Sys2Proof.Machine
end

section
/-!
The isolation of the lanes: what each operation of a lane changes beyond the lane, its stream and that stream's slots (R94).
-/

namespace Sys2Proof.Machine

/-! ## Changes of one lane's own -/

/-- From `s` to `t` no lane or stream but `i` changes, no slot of another stream, no band memory, and nothing of the system
port, the admin unit, intake, the raster unit and the commands. The ring unit's queue may change (R151). -/
structure State.OnlyLane (i : StreamId) (s t : State) : Prop where
  lanes : ∀ j, j ≠ i → t.lane j = s.lane j
  streams : ∀ j, j ≠ i → t.stream j = s.stream j
  port : t.port = s.port
  admin : t.admin = s.admin
  intake : t.intake = s.intake
  raster : t.raster = s.raster
  mem : t.bands.mem = s.bands.mem
  pending : t.pending = s.pending
  slots : ∀ k b, s.slot k = some b → b.stream ≠ i → t.slot k = some b

variable {i : StreamId} {s t u : State}

theorem State.OnlyLane.refl (i : StreamId) (s : State) : State.OnlyLane i s s :=
  ⟨fun _ _ => rfl, fun _ _ => rfl, rfl, rfl, rfl, rfl, rfl, rfl, fun _ _ hb _ => hb⟩

theorem State.OnlyLane.then (h : State.OnlyLane i s t) (h' : State.OnlyLane i t u) : State.OnlyLane i s u where
  lanes j hj := (h'.lanes j hj).trans (h.lanes j hj)
  streams j hj := (h'.streams j hj).trans (h.streams j hj)
  port := h'.port.trans h.port
  admin := h'.admin.trans h.admin
  intake := h'.intake.trans h.intake
  raster := h'.raster.trans h.raster
  mem := h'.mem.trans h.mem
  pending := h'.pending.trans h.pending
  slots k b hb hne := h'.slots k b (h.slots k b hb hne) hne

theorem State.OnlyLane.mapLane (h : State.OnlyLane i s t) (f : Lane → Lane) : State.OnlyLane i s (t.mapLane i f) :=
  h.then ⟨fun _ hj => State.lane_mapLane_ne f t hj, fun _ _ => rfl, rfl, rfl, rfl, rfl, rfl, rfl, fun _ _ hb _ => hb⟩

theorem State.OnlyLane.mapStream (h : State.OnlyLane i s t) (f : Stream → Stream) : State.OnlyLane i s (t.mapStream i f) :=
  h.then ⟨fun _ _ => rfl, fun _ hj => State.stream_mapStream_ne f t hj, rfl, rfl, rfl, rfl, rfl, rfl, fun _ _ hb _ => hb⟩

/-! ## Admissions and events -/

/-- The admission of a lane's event changes the lane and the queue (R151). -/
theorem State.OnlyLane.admitAsMade (h : State.OnlyLane i s t) : State.OnlyLane i s (t.admitAsMade (.lane i)) := by
  obtain ⟨hport, hadmin, hstreams, hintake, hraster, hbands, hpending⟩ := State.admitAsMade_lane_frame i t
  refine h.then ⟨fun j hj => ?_, fun j _ => State.stream_congr hstreams j, hport, hadmin, hintake, hraster, by rw [hbands],
    hpending, fun k _ hb _ => (State.slot_congr hbands k).trans hb⟩
  rcases State.admitAsMade_cases (.lane i) t with e | ⟨_, _, _, _, e⟩
  · rw [e]
  · rw [e, State.admit_lane, if_neg]
    rintro ⟨own, _⟩
    exact hj (Producer.lane.inj own).symm

/-- The offers of the lane's stream change that stream and the queue (R25, R150). -/
theorem State.OnlyLane.offerStream (h : State.OnlyLane i s t) : State.OnlyLane i s (t.offerStream i) := by
  obtain ⟨hport, hadmin, hintake, hraster, hbands, hlanes, hpending⟩ := State.offerStream_frame i t
  exact h.then ⟨fun j _ => State.lane_congr hlanes j, fun j hj => State.offerStream_ne hj t, hport, hadmin, hintake, hraster,
    by rw [hbands], hpending, fun k _ hb _ => (State.slot_congr hbands k).trans hb⟩

theorem State.OnlyLane.postEvent (h : State.OnlyLane i s t) (ev : LaneEvent) : State.OnlyLane i s (t.postEvent i ev) := by
  unfold State.postEvent
  split
  · exact h
  · exact (h.mapLane _).admitAsMade

theorem State.OnlyLane.settleLane (h : State.OnlyLane i s t) : State.OnlyLane i s (t.settleLane i) := h.mapLane _

theorem State.OnlyLane.laneHalted (h : State.OnlyLane i s t) (reason : BitVec 4) (band : Option Band) :
    State.OnlyLane i s (t.laneHalted i reason band) := ((h.mapLane _).postEvent _).settleLane

theorem State.OnlyLane.laneLost (h : State.OnlyLane i s t) : State.OnlyLane i s (t.laneLost i) :=
  ((h.mapLane _).postEvent _).settleLane

/-! ## Counters -/

theorem State.OnlyLane.countStale (h : State.OnlyLane i s t) : State.OnlyLane i s (t.countStale i) := by
  unfold State.countStale
  split
  · exact h.mapLane _
  · exact h

theorem State.OnlyLane.countBad (h : State.OnlyLane i s t) : State.OnlyLane i s (t.countBad i) := by
  unfold State.countBad
  split
  · exact h.mapLane _
  · exact h

theorem State.OnlyLane.countResend (h : State.OnlyLane i s t) : State.OnlyLane i s (t.countResend i) := by
  unfold State.countResend
  split
  · exact h.mapLane _
  · exact h

/-! ## The band of the lane's stream -/

/-- The start of a band changes the lane and its stream's slot at next-emit (R112, R113). -/
theorem State.startBand_onlyLane {k : SlotId} (hk : s.startableSlot i = some k) : State.OnlyLane i s (s.startBand i k) := by
  obtain ⟨b, hb, hi, _⟩ := State.startableSlot_some hk
  have sent : State.OnlyLane i s (s.mapSlot k fun b => { b with st := .sending }) :=
    ⟨fun _ _ => rfl, fun _ _ => rfl, rfl, rfl, rfl, rfl, rfl, rfl, fun j c hc hne => by
      have other : j ≠ k := by
        rintro rfl
        exact hne (Option.some.inj (hc.symm.trans hb) ▸ hi)
      rw [State.slot_mapSlot, if_neg other, hc]⟩
  unfold State.startBand
  split
  · exact sent.mapLane _
  · exact .refl i s

/-- A band that leaves changes its stream and the stream's SENDING slot (R14). -/
theorem State.passBand_onlyLane {k : SlotId} (hk : s.sendingSlot i = some k) : State.OnlyLane i s (s.passBand i k) := by
  obtain ⟨b, hb, hi, _⟩ := State.sendingSlot_some hk
  obtain ⟨hport, _, hadmin, hstreams, hintake, hraster, hlanes, hpending⟩ := State.freeSlot_frame k s
  have freed : State.OnlyLane i s (s.freeSlot k) :=
    ⟨fun j _ => State.lane_congr hlanes j, fun j _ => State.stream_congr hstreams j, hport, hadmin, hintake, hraster,
      s.freeSlot_mem k, hpending, fun j c hc hne => by
      have other : j ≠ k := by
        rintro rfl
        exact hne (Option.some.inj (hc.symm.trans hb) ▸ hi)
      rw [State.freeSlot_slot, if_neg other, hc]⟩
  exact freed.mapStream _

theorem State.sentBand_onlyLane {k : SlotId} (hk : s.sendingSlot i = some k) : State.OnlyLane i s (s.sentBand i k) := by
  unfold State.sentBand
  split
  · exact .refl i s
  · have offered := (State.passBand_onlyLane hk).offerStream
    unfold State.postSent
    split
    · exact offered.postEvent _
    · exact offered

theorem State.OnlyLane.bandEmitted (h : State.OnlyLane i s t) : State.OnlyLane i s (t.bandEmitted i) := by
  unfold State.bandEmitted
  split
  · exact (h.mapLane _).settleLane
  · next k hk => exact ((h.then (State.sentBand_onlyLane hk)).mapLane _).settleLane

/-! ## Replies and timers -/

theorem State.OnlyLane.startCancel (h : State.OnlyLane i s t) : State.OnlyLane i s (t.startCancel i) := by
  unfold State.startCancel
  exact h.mapLane _

theorem State.acceptTaken_onlyLane (i : StreamId) (o : Outstanding) (s : State) :
    State.OnlyLane i s (s.acceptTaken i o) := by
  have accepted : State.OnlyLane i s (s.mapLane i (Lane.accepted o)) := (State.OnlyLane.refl i s).mapLane _
  simp only [State.acceptTaken]
  split
  · exact ((accepted.mapLane _).postEvent _).settleLane
  · have spent := accepted.mapLane fun l => { l with credit := l.credit - 1 }
    split
    · exact spent.startCancel
    · split
      · exact spent.mapLane _
      · exact spent.mapLane _
  · split
    · exact accepted.startCancel
    · split
      · exact accepted.mapLane _
      · exact accepted.mapLane _
  · exact accepted.bandEmitted
  · exact accepted.mapLane _

theorem State.OnlyLane.exhausted (h : State.OnlyLane i s t) (o : Outstanding) : State.OnlyLane i s (t.exhausted i o) := by
  unfold State.exhausted
  split
  · exact h.mapLane _
  all_goals exact h.laneLost

theorem State.waitTaken_onlyLane (i : StreamId) (o : Outstanding) (s : State) : State.OnlyLane i s (s.waitTaken i o) := by
  have refl := State.OnlyLane.refl i s
  simp only [State.waitTaken]
  split
  · exact refl.mapLane _
  · split
    · exact (refl.mapLane _).exhausted o
    · exact (refl.mapLane _).mapLane _

theorem State.refuseTaken_onlyLane (i : StreamId) (reason : BitVec 4) (o : Outstanding) (s : State) :
    State.OnlyLane i s (s.refuseTaken i reason o) := by
  unfold State.refuseTaken
  split
  · exact (State.OnlyLane.refl i s).mapLane _
  all_goals exact (State.OnlyLane.refl i s).laneHalted reason _

theorem State.reply_onlyLane {seq : Seq} {taken : Outstanding → State → State}
    (h : ∀ o, State.OnlyLane i s (taken o s)) : State.OnlyLane i s (s.reply i seq taken) := by
  unfold State.reply
  split
  · exact (State.OnlyLane.refl i s).countStale
  · split
    · exact h _
    · exact (State.OnlyLane.refl i s).countStale

theorem State.takeCredit_onlyLane (i : StreamId) (grant : Byte) (s : State) :
    State.OnlyLane i s (s.takeCredit i grant) := by
  unfold State.takeCredit
  split
  · exact (State.OnlyLane.refl i s).countStale
  · exact (State.OnlyLane.refl i s).mapLane _

theorem State.OnlyLane.resend (h : State.OnlyLane i s t) : State.OnlyLane i s (t.resend i) := (h.mapLane _).countResend

theorem State.replyExpired_onlyLane (i : StreamId) (o : Outstanding) (s : State) :
    State.OnlyLane i s (s.replyExpired i o) := by
  have refl := State.OnlyLane.refl i s
  simp only [State.replyExpired]
  split
  · exact refl.resend
  · split
    · exact (refl.mapLane _).startCancel
    · split
      · exact (refl.mapLane _).exhausted o
      · exact (refl.mapLane _).resend

/-! ## The rows -/

theorem execBadFrame_onlyLane {bytes : List Byte} (h : execBadFrame i bytes s = .next t) : State.OnlyLane i s t := by
  unfold execBadFrame at h
  split at h <;> cases h
  · exact (State.OnlyLane.refl i s).countBad
  · exact State.reply_onlyLane fun o => s.acceptTaken_onlyLane i o
  · exact State.reply_onlyLane fun o => s.waitTaken_onlyLane i o
  · exact State.reply_onlyLane fun o => s.refuseTaken_onlyLane i _ o
  · exact s.takeCredit_onlyLane i _

/-- A row of a lane changes nothing beyond the lane, its stream and that stream's slots (R94). -/
theorem exec_onlyLane {c : Instr} (hc : laneOf c = some i) (h : exec c s = .next t) : State.OnlyLane i s t := by
  have refl := State.OnlyLane.refl i s
  cases c with
  | syncSend j =>
    obtain rfl := Option.some.inj hc
    simp only [exec, execSyncSend] at h
    split at h
    · cases h; exact refl
    · split at h <;> cases h
      · exact refl.mapLane _
      · exact refl
  | bandStart j =>
    obtain rfl := Option.some.inj hc
    simp only [exec, execBandStart] at h
    split at h <;> cases h
    · exact refl
    · exact State.startBand_onlyLane ‹_›
  | frameSent j => obtain rfl := Option.some.inj hc; cases h; exact refl.mapLane _
  | accept j seq =>
    obtain rfl := Option.some.inj hc; cases h; exact State.reply_onlyLane fun o => s.acceptTaken_onlyLane _ o
  | wait j seq =>
    obtain rfl := Option.some.inj hc; cases h; exact State.reply_onlyLane fun o => s.waitTaken_onlyLane _ o
  | refuse j seq reason =>
    obtain rfl := Option.some.inj hc; cases h; exact State.reply_onlyLane fun o => s.refuseTaken_onlyLane _ reason o
  | credit j grant =>
    obtain rfl := Option.some.inj hc
    cases h
    split
    · exact refl.countBad
    · exact s.takeCredit_onlyLane _ grant
  | badFrame j bytes => obtain rfl := Option.some.inj hc; exact execBadFrame_onlyLane h
  | replyTimerExpiry j =>
    obtain rfl := Option.some.inj hc
    simp only [exec, execReplyTimerExpiry] at h
    split at h <;> cases h
    · exact refl
    · split
      · exact s.replyExpired_onlyLane _ _
      · exact refl
  | waitTimerExpiry j =>
    obtain rfl := Option.some.inj hc
    simp only [exec, execWaitTimerExpiry] at h
    split at h <;> cases h
    · exact refl
    · split
      · exact refl.mapLane _
      · exact refl
  | starveTimerExpiry j =>
    obtain rfl := Option.some.inj hc
    cases h
    split
    · exact (refl.mapLane _).postEvent _
    · exact refl
  | _ => cases hc

end Sys2Proof.Machine

namespace Sys2Proof.Machine

/-- Settles O10: every row of a lane. -/
theorem lanesAreIsolated : Obligations.LanesAreIsolated := by
  intro c i j s t hc hj h
  have only := exec_onlyLane hc h
  exact ⟨only.lanes j hj, only.streams j hj, only.port, only.admin, only.intake, only.raster, only.mem, only.pending,
    fun k b hb hbj => only.slots k b hb (hbj ▸ hj)⟩

end Sys2Proof.Machine
end

section
/-!
Event causes with their message (R155, R156, R170), and the writes of completion entries with their coalescing (R147, R148,
R153, R154).
-/

namespace Sys2Proof.Machine

/-! ## Causes and the message -/

/-- Causes that are cleared enable nothing new (R155, R156). -/
theorem Causes.meets_of_without {c d m : Causes} (h : (c.without d).meets m = true) : c.meets m = true := by
  simp only [Causes.meets, Causes.without, Bool.or_eq_true, Bool.and_eq_true] at h ⊢
  tauto

/-- A message is asked for when the set-and-enabled causes become non-empty (R156). -/
theorem Port.setEvents_eq (p : Port) (cause mask : Causes) : p.setEvents cause mask =
    if !p.cause.meets p.mask && cause.meets mask then { p with cause := cause, mask := mask }.askMessage
    else { p with cause := cause, mask := mask } := by
  simp [Port.setEvents]

/-- What becomes of a message asked for (R170). -/
theorem Port.askMessage_eq (p : Port) : p.askMessage =
    if (p.messages && p.linkUp && p.part != .detaching) && p.busMaster then { p with sent := p.sent ++ [.interrupt] }
    else if p.messages && p.linkUp && p.part != .detaching then { p with waiting := p.waiting ++ [.message] }
    else p := by
  by_cases hpart : p.part = .detaching <;> cases hm : p.messages <;> cases hl : p.linkUp <;>
    simp [Port.askMessage, hpart, hm, hl]

/-- Settles O24: clearing causes, enabling causes and setting causes. -/
theorem causesAndTheirMessage : Obligations.CausesAndTheirMessage := by
  intro s value c lives asks on
  have asked (p : Port) (news : Bool) (h : lives = (p.messages && p.linkUp && p.part != .detaching))
      (hb : p.busMaster = s.port.busMaster) : asks p news = if news then p.askMessage else p := by
    cases news <;> simp [asks, Port.askMessage_eq, ← h, ← hb]
  refine ⟨?_, ?_, ?_⟩
  · have quiet : ¬(s.port.cause.meets s.port.mask = false ∧
        (s.port.cause.without (Causes.ofWord value)).meets s.port.mask = true) :=
      fun ⟨off, h⟩ => by simp [Causes.meets_of_without h] at off
    exact congrArg Host.Outcome.next (congrArg (fun p => { s with port := p }) (if_neg quiet))
  · refine congrArg Host.Outcome.next (congrArg (fun p => { s with port := p }) ?_)
    exact (Port.setEvents_eq _ _ _).trans (asked { s.port with mask := Causes.ofWord value } _ rfl rfl).symm
  · refine congrArg (fun p => { s with port := p }) ?_
    exact (Port.setEvents_eq _ _ _).trans (asked { s.port with cause := s.port.cause.union c } _ rfl rfl).symm

/-! ## The write of an entry -/

/-- An entry that sets COMPLETION whatever the count (R153). -/
theorem Entry.urgent_iff {e : Entry} :
    e.urgent = true ↔ (e.status ≠ .ok ∧ e.status ≠ .skipped) ∨ e.kind = 0x23#8 ∨ e.kind = 0x24#8 := by
  simp [Entry.urgent, or_assoc]

/-- With COMPLETION set the entry is not counted (R153). -/
theorem State.countEntry_set {s : State} (h : s.port.cause.completion = true) (e : Entry) : s.countEntry e = s := by
  unfold State.countEntry
  split
  · rfl
  · exact if_pos h

/-- An urgent entry, or the one that reaches the count, sets COMPLETION (R153). -/
theorem State.countEntry_last {s : State} {e : Entry} {k : Coalesce} (hk : s.ring.coalesce = some k)
    (hclear : s.port.cause.completion = false) (h : e.urgent = true ∨ k.counter + 1 = k.count) : s.countEntry e =
      ({ s with ring := { s.ring with coalesce := some { k with counter := 0, timer := false } } } : State).raise
        .ofCompletion := by
  have last : (e.urgent || k.counter + 1 == k.count) = true := by simpa using h
  simp [State.countEntry, hk, hclear, last]

/-- Any other entry is counted, and the first one starts the timer (R153, R154). -/
theorem State.countEntry_counted {s : State} {e : Entry} {k : Coalesce} (hk : s.ring.coalesce = some k)
    (hclear : s.port.cause.completion = false) (hcalm : ¬e.urgent = true) (h : k.counter + 1 ≠ k.count) : s.countEntry e =
      { s with ring := { s.ring with coalesce := some { k with
          counter := k.counter + 1, timer := k.timer || (k.counter == 0 && k.time != 0) } } } := by
  simp [State.countEntry, hk, hclear, hcalm, h]

/-- Counting leaves the rings and the queue. -/
theorem State.countEntry_rings (e : Entry) (s : State) : (s.countEntry e).ring.queue = s.ring.queue ∧
    (s.countEntry e).ring.admin = s.ring.admin ∧ (s.countEntry e).ring.comp = s.ring.comp := by
  unfold State.countEntry
  repeat' split
  all_goals simp

theorem CompRing.room_iff {c : CompRing} : c.room = true ↔ (c.write + 1) % c.size ≠ c.release := by
  simp [CompRing.room]

/-- COMPLETION_ENTRY_WRITE with an entry in the queue and room for it: its write is asked for (R147, R168). -/
theorem execCompletionEntryWrite_room {s : State} {c : CompRing} (hpart : s.port.part = .attached)
    (hqueue : s.ring.queue ≠ []) (hcomp : s.ring.comp = some c) (hroom : c.room = true)
    (hwait : .entry ∉ s.port.waiting) : exec .completionEntryWrite s = .next
      (if s.port.canIssue then s.issueEntry
       else { s with port := { s.port with waiting := s.port.waiting ++ [.entry] } }) :=
  if_pos ⟨hpart, hqueue, by simpa [hcomp] using hroom, hwait⟩

/-- Without room it changes nothing (R147, log 2). -/
theorem execCompletionEntryWrite_full {s : State} {c : CompRing} (hcomp : s.ring.comp = some c) (hroom : c.room = false) :
    exec .completionEntryWrite s = .next s :=
  if_neg fun ⟨_, _, h, _⟩ => by simp [hcomp, hroom] at h

/-- The entry at the queue's head is written and counted (R147, R148, R153, R175). -/
theorem State.issueEntry_eq {s : State} {e : Entry} {q : List Entry} {c : CompRing} (hqueue : s.ring.queue = e :: q)
    (hcomp : s.ring.comp = some c) : s.issueEntry = State.countEntry e
      { s with
        ring := { s.ring with
          queue := q
          comp := some { c with
            write := (c.write + 1) % c.size, phase := if (c.write + 1) % c.size = 0 then !c.phase else c.phase } }
        port := { s.port with
          sent := s.port.sent ++ [.write (c.base + BitVec.ofNat 64 (16 * c.write)) (entryBytes c.phase e)] } } := by
  simp [State.issueEntry, hqueue, hcomp]

/-- Settles O52: the timer, the full ring, the write that waits, and the write counted in each of R153's ways. -/
theorem entriesAreWrittenAndCounted : Obligations.EntriesAreWrittenAndCounted := by
  intro s e q c k hcomp hk off
  refine ⟨fun ht => ?_, fun ht => ?_, fun _ _ hfull => ?_, fun hpart hqueue hroom hwait => ?_⟩
  · simp [exec, execCoalesceTimerExpiry, hk, ht, off]
  · simp [exec, execCoalesceTimerExpiry, hk, ht]
  · exact execCompletionEntryWrite_full hcomp (by simpa [CompRing.room] using hfull)
  · have row := execCompletionEntryWrite_room hpart (by simp [hqueue]) hcomp (CompRing.room_iff.2 hroom) hwait
    refine ⟨fun hoff => ?_, ?_⟩
    · rw [row, if_neg]
      rcases hoff with h | h <;> simp [Port.canIssue, h]
    · intro hbus hlink w status bytes written urgent
      have issued : exec .completionEntryWrite s = .next (State.countEntry e (written k)) := by
        have bytes_eq : entryBytes c.phase e = bytes := by
          cases he : e.status <;> simp only [entryBytes, he, Status.code, bytes, status]
        rw [row, if_pos (by simp [Port.canIssue, hbus, hlink]), State.issueEntry_eq hqueue hcomp, bytes_eq]
        simp only [written, w, ← hk]
      have coalesce : (written k).ring.coalesce = some k := rfl
      rw [issued]
      refine ⟨fun hset => ?_, fun hclear h => ?_, fun hclear hcalm h => ?_⟩
      · rw [State.countEntry_set (by exact hset)]
      · rw [State.countEntry_last coalesce hclear (h.imp_left Entry.urgent_iff.2)]
      · rw [State.countEntry_counted coalesce hclear (mt Entry.urgent_iff.1 hcalm) h]

end Sys2Proof.Machine
end

section
/-!
Notify writes (R140 to R145): what each queue id takes, stores and rejects, and the counts of the rings they move.
-/

namespace Sys2Proof.Machine

variable {s : State} {i : StreamId} {index : BitVec 16} {r : Ring} {c : CompRing}

/-! ## Which writes are taken -/

/-- No queue takes a notify write of a part that is not ATTACHED (R142). -/
theorem State.notify_of_not_attached (h : s.port.part ≠ .attached) (q : BitVec 8) (index : BitVec 16) :
    s.notify q index = s.rejectNotify := if_pos h

/-- An unused queue id is rejected in any part state (R142). -/
theorem State.notify_of_unused {q : BitVec 8} (h : usedQueue q = false) (index : BitVec 16) (s : State) :
    s.notify q index = s.rejectNotify := by
  simp only [usedQueue, Bool.or_eq_false_iff, decide_eq_false_iff_not, beq_eq_false_iff_ne] at h
  obtain ⟨hbig, h7⟩ := h
  have h0 : q ≠ 0#8 := fun e => hbig (by simp [e])
  simp [State.notify, h0, h7, hbig]

/-- An admin tail is taken below the size, and rejected from there on (R142, R143). -/
theorem State.notify_admin (hpart : s.port.part = .attached) (hring : s.ring.admin = some r) (index : BitVec 16) :
    s.notify 0#8 index = if index.toNat < r.size then s.setAdminTail r index.toNat else s.rejectNotify := by
  simp [State.notify, hpart, hring]

/-- The queue id of a stream's tail leads to that stream (R142). -/
theorem State.notify_stream (hpart : s.port.part = .attached) (i : StreamId) (index : BitVec 16) :
    s.notify (BitVec.ofNat 8 (1 + i.val)) index =
      if (s.stream i).st = .unconfigured then s.rejectNotify
      else (s.stream i).ring.elim s.rejectNotify fun r =>
        if index.toNat < r.size then s.setStreamTail i r index.toNat else s.rejectNotify := by
  have queue : (BitVec.ofNat 8 (1 + i.val)).toNat = 1 + i.val := by simp; omega
  have range : 1 ≤ (BitVec.ofNat 8 (1 + i.val)).toNat ∧ (BitVec.ofNat 8 (1 + i.val)).toNat ≤ 4 := by omega
  have h0 : BitVec.ofNat 8 (1 + i.val) ≠ 0#8 := fun e => by simp [e] at range
  have stream : (⟨(BitVec.ofNat 8 (1 + i.val)).toNat - 1, by omega⟩ : StreamId) = i := Fin.ext (by simp [queue])
  simp only [State.notify, hpart, ne_eq, not_true, if_false, h0, dif_pos range, stream]
  cases (s.stream i).ring <;> rfl

/-- A stream's tail is taken below the size, and rejected from there on (R142, R144). -/
theorem State.notify_stream_ring (hpart : s.port.part = .attached) (hst : (s.stream i).st ≠ .unconfigured)
    (hring : (s.stream i).ring = some r) (index : BitVec 16) : s.notify (BitVec.ofNat 8 (1 + i.val)) index =
      if index.toNat < r.size then s.setStreamTail i r index.toNat else s.rejectNotify := by
  rw [State.notify_stream hpart, if_neg hst, hring, Option.elim]

/-- A release is taken when it is valid (R142, R145). -/
theorem State.notify_release (hpart : s.port.part = .attached) (hcomp : s.ring.comp = some c) (index : BitVec 16) :
    s.notify 7#8 index =
      if index.toNat < c.size ∧ c.releasable index.toNat = true then
        { s with ring := { s.ring with comp := some { c with release := index.toNat } } }
      else s.rejectNotify := by
  simp [State.notify, hpart, hcomp]

/-- Settles O22: each of R142's checks in turn. -/
theorem rejectedNotifyWritesSetNotifyError : Obligations.RejectedNotifyWritesSetNotifyError := by
  intro s i q index
  have away (h : s.port.part ≠ .attached) (q : BitVec 8) : s.notify q index = s.raise .ofNotifyError :=
    State.notify_of_not_attached h q index
  have next {t u : State} (h : t = u) : (.next t : Host.Outcome State Fault Refusal) = .next u := congrArg _ h
  refine ⟨fun hq => next (State.notify_of_unused hq index s),
    fun hpart => ⟨next (away hpart _), next (away hpart _), next (away hpart _)⟩,
    fun hst => next ?_, fun r hring hle => next ?_, fun r hring hle => next ?_⟩
  all_goals
    by_cases hpart : s.port.part = .attached
    case neg => exact away hpart _
  · rw [State.notify_stream hpart, if_pos hst]; rfl
  · by_cases hst : (s.stream i).st = .unconfigured
    · rw [State.notify_stream hpart, if_pos hst]; rfl
    · rw [State.notify_stream_ring hpart hst hring, if_neg (Nat.not_lt.2 hle)]; rfl
  · rw [State.notify_admin hpart hring, if_neg (Nat.not_lt.2 hle)]; rfl

/-! ## What an accepted tail stores -/

theorem State.setAdminTail_idle (h : ∀ bs n met, s.admin ≠ .fetched bs n met) (r : Ring) (index : Nat) :
    s.setAdminTail r index = { s with ring := { s.ring with admin := some { r with tail := index } } } := by
  rcases State.setAdminTail_cases r index s with ⟨bs, n, met, hadmin, _⟩ | ⟨_, e⟩
  · exact absurd hadmin (h bs n met)
  · exact e

theorem State.setAdminTail_taken {bs : List Byte} {n : Nat} {met : Bool} (h : s.admin = .fetched bs n met) (r : Ring)
    (index : Nat) : s.setAdminTail r index =
      if index = r.head then { s with admin := .fetched bs n true }
      else { s with admin := .fetched bs n false, ring := { s.ring with admin := some { r with tail := index } } } := by
  simp [State.setAdminTail, h]

theorem State.setStreamTail_eq (i : StreamId) (r : Ring) (index : Nat) (s : State) : s.setStreamTail i r index =
    if index = r.head ∧ (s.stream i).latch ≠ .empty then
      { s.setStream i { s.stream i with ring := some { r with tail := index }, latch := .empty } with
        intake := s.intake.drop i }
    else s.setStream i { s.stream i with ring := some { r with tail := index } } := by
  unfold State.setStreamTail
  split
  · rw [State.emptyLatch_mapStream]
  · rfl

/-! ## The row of a taken command moves the head -/

/-- The rows that carry out an admin command (R30). -/
def adminRows : List Instr :=
  [.unknownCommand, .configureStream, .startStream, .stopStream, .abortStream, .releaseStream, .clearStreamResume,
    .clearStreamSkipBand, .clearLaneResend, .clearLaneSkip, .queryStream]

theorem rowTakes_mem (bs : List Byte) : rowTakes bs ∈ adminRows := by
  rw [rowTakes_eq]
  cases recCommand bs with
  | none => simp [adminRows]
  | some c => by_cases ha : recAction bs = 1 <;> cases c <;> simp [Command.row, ha, adminRows]

/-- An offer admitted as it is made leaves the rings (R151). -/
theorem State.admitAsMade_rings (p : Producer) (s : State) :
    (s.admitAsMade p).ring.admin = s.ring.admin ∧ (s.admitAsMade p).ring.comp = s.ring.comp := by
  rcases State.admitAsMade_cases p s with e | ⟨_, _, _, _, e⟩
  · simp [e]
  · rw [e]; exact ⟨(s.admit_rings p).1, (s.admit_rings p).2.1⟩

theorem State.complete_adminRing (a : AdminCmd) (st : Status) (extra : BitVec 32) (s : State) :
    (s.complete a st extra).ring.admin = some a.past :=
  (State.admitAsMade_rings _ _).1

/-- A command whose effect leaves the ring past it does so when refused too (R30). -/
theorem State.runCommand_adminRing {a : AdminCmd} {c : Command} {taken : Stream → Lane → Bool} {fieldsOk : Bool}
    {effect : StreamId → State → State} {s : State} (h : ∀ i, (effect i s).ring.admin = some a.past) :
    (s.runCommand a c taken fieldsOk effect).ring.admin = some a.past :=
  State.runCommand_keeps (P := fun t => t.ring.admin = some a.past) (fun _ _ => State.complete_adminRing _ _ _ _)
    fun i _ => h i

/-- Every admin row carries out the taken command of the records that go to it, and leaves the ring past the command (R29,
R141, log 3). -/
theorem adminRow_runs {c : Instr} (hc : c ∈ adminRows) : ∃ (row : List Byte → Bool) (run : State → AdminCmd → State),
    (∀ s, exec c s = s.commandRow row (run s)) ∧ (∀ bs, row bs = true ↔ rowTakes bs = c) ∧
      ∀ s a, (run s a).ring.admin = some a.past := by
  have past (a : AdminCmd) (st : Status) (extra : BitVec 32) (t : State) : (t.complete a st extra).ring.admin = some a.past :=
    t.complete_adminRing a st extra
  simp only [adminRows, List.mem_cons, List.not_mem_nil, or_false] at hc
  rcases hc with rfl | rfl | rfl | rfl | rfl | rfl | rfl | rfl | rfl | rfl | rfl
  all_goals
    refine ⟨_, _, fun s => rfl, fun bs => ?_, fun s a => ?_⟩
    on_goal 1 =>
      rw [rowTakes_eq]
      rcases recCommand bs with _ | c
      · simp
      · by_cases ha : recAction bs = 1 <;> cases c <;> simp [Command.row, ha]
  · exact past ..
  all_goals refine State.runCommand_adminRing fun i => ?_
  -- CONFIGURE_STREAM
  · split
    · exact past ..
    · split <;> exact past ..
  -- START_STREAM
  · exact past ..
  -- STOP_STREAM
  · split
    · exact past ..
    · split <;> rfl
  -- ABORT_STREAM
  · split
    · exact past ..
    · rfl
  -- RELEASE_STREAM
  · exact past ..
  -- CLEAR_STREAM RESUME, and SKIP_BAND
  · exact past ..
  · dsimp only
    split
    · exact past ..
    · split <;> exact past ..
  -- CLEAR_LANE RESEND, and SKIP
  · exact past ..
  · split <;> exact past ..
  -- QUERY_STREAM
  · split
    · exact past ..
    · rfl

/-- So does the row that takes a record, for the command taken (log 3). -/
theorem State.HasCommand.moves_head {bs : List Byte} {n : Nat} (h : s.HasCommand bs n r) :
    ∃ t, exec (rowTakes bs) s = .next t ∧ t.ring.admin = some r := by
  obtain ⟨row, run, hexec, hrow, hpast⟩ := adminRow_runs (rowTakes_mem bs)
  exact ⟨_, (hexec s).trans (h.commandRow ((hrow bs).2 rfl) (run s)), hpast _ _⟩

/-- Settles O21: the admin tail without and beside a taken command, and the stream tail off and on the head. -/
theorem acceptedTailsAreStored : Obligations.AcceptedTailsAreStored := by
  intro s i index r hpart hlt
  have next {t u : State} (h : t = u) : (.next t : Host.Outcome State Fault Refusal) = .next u := congrArg _ h
  refine ⟨fun hring => ?_, fun hst hring => ?_⟩
  · have taken : s.notify 0#8 index = s.setAdminTail r index.toNat := by rw [State.notify_admin hpart hring, if_pos hlt]
    refine ⟨fun hidle => next ?_, fun bs n met hadmin => ⟨fun hne => next ?_, fun heq => ⟨next ?_, ?_⟩⟩⟩
    · rw [taken, State.setAdminTail_idle hidle]
    · rw [taken, State.setAdminTail_taken hadmin, if_neg hne]
    · rw [taken, State.setAdminTail_taken hadmin, if_pos heq]
    · exact State.HasCommand.moves_head (n := n) ⟨hpart, r, true, rfl, hring, by rw [heq]; rfl⟩
  · have taken : s.notify (BitVec.ofNat 8 (1 + i.val)) index = s.setStreamTail i r index.toNat := by
      rw [State.notify_stream_ring hpart hst hring, if_pos hlt]
    refine ⟨fun hoff => next ?_, fun hlatch heq => next ?_⟩
    · rw [taken, State.setStreamTail_eq, if_neg fun h => hoff.elim h.2 fun hne => hne h.1]
    · rw [taken, State.setStreamTail_eq, if_pos ⟨heq, hlatch⟩]

end Sys2Proof.Machine
end

section
/-!
The counts of the rings (R140), and releases beside entry writes (R145).
-/

namespace Sys2Proof.Machine

variable {s : State} {i : StreamId} {index : BitVec 16} {r : Ring} {c : CompRing}

/-! ## Positions of a ring -/

/-- The difference of two positions of a ring of `n` entries (R140). -/
theorem ringDiff {a b n : Nat} (ha : a < n) (hb : b < n) :
    ((a : Int) - b) % n = if b ≤ a then (a : Int) - b else a - b + n := by
  split
  · exact Int.emod_eq_of_lt (by omega) (by omega)
  · rw [← Int.add_emod_right]
    exact Int.emod_eq_of_lt (by omega) (by omega)

/-- The model's difference of two positions is that of R140. -/
theorem ringDiff_cast {a b n : Nat} (hb : b < n) : (((a + n - b) % n : Nat) : Int) = ((a : Int) - b) % n := by
  rw [Int.natCast_emod, Int.natCast_sub (by omega), Int.natCast_add, add_sub_right_comm, Int.add_emod_right]

/-- The position after the last is the first (R139). -/
theorem ringNext {a n : Nat} (ha : a < n) : (a + 1) % n = if a + 1 = n then 0 else a + 1 := by
  split
  · next h => rw [h, Nat.mod_self]
  · exact Nat.mod_eq_of_lt (by omega)

/-! ## Counts -/

theorem Ring.count_eq (hhead : r.head < r.size) : (r.count : Int) = ((r.tail : Int) - r.head) % r.size :=
  ringDiff_cast hhead

theorem Ring.isEmpty_iff : r.isEmpty = true ↔ r.head = r.tail := beq_iff_eq

/-- A ring without records counts none (R140). -/
theorem Ring.count_eq_zero (hhead : r.head < r.size) (htail : r.tail < r.size) : r.count = 0 ↔ r.head = r.tail := by
  have count := Ring.count_eq hhead
  rw [ringDiff htail hhead] at count
  split at count <;> omega

/-- An admin tail other than a taken command's own index is stored (R143). -/
theorem execNotifyAdminTail_stores (hpart : s.port.part = .attached) (hring : s.ring.admin = some r)
    (hlt : index.toNat < r.size) (hfree : ∀ bs n met, s.admin = .fetched bs n met → index.toNat ≠ r.head) :
    ∃ t, exec (.notifyAdminTail index) s = .next t ∧ t.ring.admin = some { r with tail := index.toNat } := by
  refine ⟨_, rfl, ?_⟩
  rw [State.notify_admin hpart hring, if_pos hlt]
  rcases State.setAdminTail_cases r index.toNat s with ⟨bs, n, met, hadmin, ⟨heq, _⟩ | ⟨_, e⟩⟩ | ⟨_, e⟩
  · exact absurd heq (hfree bs n met hadmin)
  · rw [e]
  · rw [e]

/-- A stream tail is stored, on the head and off it (R144). -/
theorem execNotifyStreamTail_stores (hpart : s.port.part = .attached) (hst : (s.stream i).st ≠ .unconfigured)
    (hring : (s.stream i).ring = some r) (hlt : index.toNat < r.size) : ∃ t, exec (.notifyStreamTail i index) s = .next t ∧
      (t.stream i).ring = some { r with tail := index.toNat } := by
  refine ⟨_, rfl, ?_⟩
  rw [State.notify_stream_ring hpart hst hring, if_pos hlt, State.setStreamTail_eq]
  split <;> simp [State.stream, State.setStream]

/-- The completion ring is full with one entry less than its size unreleased (R140, R147). -/
theorem CompRing.room_false_iff (hwrite : c.write < c.size) (hrel : c.release < c.size) :
    c.room = false ↔ ((c.write : Int) - c.release) % c.size = c.size - 1 := by
  have full : c.room = false ↔ (c.write + 1) % c.size = c.release := by simp [CompRing.room]
  rw [full, ringNext hwrite, ringDiff hwrite hrel]
  split <;> split <;> omega

/-- Settles O14: the counts of a ring, the tails taken at their new count, and the full completion ring. -/
theorem ringsCountModuloTheirSize : Obligations.RingsCountModuloTheirSize := by
  refine ⟨fun r hhead htail => ⟨Ring.count_eq hhead, Ring.isEmpty_iff, ?_, ?_, ?_, fun n _ => Ring.count_eq hhead,
    fun s i index hpart hlt => ⟨fun hring hfree => ?_, fun hst hring => ?_⟩⟩, fun c hwrite hrel => ⟨?_, ?_⟩⟩
  · rw [Ring.isEmpty_iff, Ring.count_eq_zero hhead htail]
  · exact Nat.le_sub_one_of_lt (Nat.mod_lt _ (by omega))
  · rw [Nat.add_mod_right, Nat.mod_eq_of_lt hhead]
  · obtain ⟨t, hexec, ht⟩ := execNotifyAdminTail_stores hpart hring hlt hfree
    exact ⟨t, _, hexec, ht, rfl, Ring.count_eq hhead⟩
  · obtain ⟨t, hexec, ht⟩ := execNotifyStreamTail_stores hpart hst hring hlt
    exact ⟨t, _, hexec, ht, rfl, Ring.count_eq hhead⟩
  · exact CompRing.room_false_iff hwrite hrel
  · simp [CompRing.room]

/-! ## Releases -/

/-- The model's check of a release is R145's. -/
theorem CompRing.releasable_iff (hrel : c.release < c.size) {n : Nat} : c.releasable n = true ↔
    ((n : Int) - c.release) % c.size ≤ ((c.write : Int) - c.release) % c.size := by
  rw [CompRing.releasable, decide_eq_true_eq, ← ringDiff_cast hrel, ← ringDiff_cast hrel, Int.ofNat_le]

/-- What lies between the released positions and the written ones (R145). -/
theorem CompRing.held_sub_freed (hwrite : c.write < c.size) (hrel : c.release < c.size) {n : Nat} (hn : n < c.size)
    (h : ((n : Int) - c.release) % c.size ≤ ((c.write : Int) - c.release) % c.size) :
    ((c.write : Int) - n) % c.size = ((c.write : Int) - c.release) % c.size - ((n : Int) - c.release) % c.size := by
  rw [ringDiff hwrite hrel, ringDiff hn hrel] at h
  rw [ringDiff hwrite hn, ringDiff hwrite hrel, ringDiff hn hrel]
  split at h <;> split at h <;> split <;> omega

/-- An entry written first leaves a valid release valid (R145). -/
theorem CompRing.freed_le_next (hwrite : c.write < c.size) (hrel : c.release < c.size) {n : Nat} (hn : n < c.size)
    (h : ((n : Int) - c.release) % c.size ≤ ((c.write : Int) - c.release) % c.size) (hroom : c.room = true) :
    ((n : Int) - c.release) % c.size ≤ ((((c.write + 1) % c.size : Nat) : Int) - c.release) % c.size := by
  have hnext : (c.write + 1) % c.size < c.size := Nat.mod_lt _ (by omega)
  have hne := CompRing.room_iff.1 hroom
  rw [ringDiff hn hrel, ringDiff hwrite hrel] at h
  rw [ringDiff hn hrel, ringDiff hnext hrel]
  rw [ringNext hwrite] at hne ⊢
  split at h <;> split at h <;> split at hne <;> split <;> omega

/-- A release that frees something gives the next write its room (R145). -/
theorem CompRing.room_of_release (hwrite : c.write < c.size) (hrel : c.release < c.size) {n : Nat} (hn : n < c.size)
    (h : ((n : Int) - c.release) % c.size ≤ ((c.write : Int) - c.release) % c.size) (hne : n ≠ c.release) :
    ({ c with release := n } : CompRing).room = true := by
  rw [ringDiff hn hrel, ringDiff hwrite hrel] at h
  rw [CompRing.room_iff, ringNext hwrite]
  split at h <;> split at h <;> split <;> simp only [ne_eq] <;> omega

/-- With room and the link free the entry at the queue's head is written and leaves the queue (R147). -/
theorem execCompletionEntryWrite_issues {e : Entry} {q : List Entry} (hpart : s.port.part = .attached)
    (hqueue : s.ring.queue = e :: q) (hcomp : s.ring.comp = some c) (hroom : c.room = true)
    (hwait : .entry ∉ s.port.waiting) (hissue : s.port.canIssue = true) :
    ∃ u, exec .completionEntryWrite s = .next u ∧ u.ring.queue = q := by
  refine ⟨_, execCompletionEntryWrite_room hpart (by simp [hqueue]) hcomp hroom hwait, ?_⟩
  rw [if_pos hissue, State.issueEntry_eq hqueue hcomp, (State.countEntry_rings _ _).1]

/-- Settles O23: the valid release in both orders with a write, and the rejected one. -/
theorem releasesReachNoFurtherThanTheWrites : Obligations.ReleasesReachNoFurtherThanTheWrites := by
  intro s index c hpart hcomp hwrite hrel n held freed next
  have row : exec (.notifyRelease index) s = .next (s.notify 7#8 index) := rfl
  have valid : c.releasable n = true ↔ freed ≤ held := CompRing.releasable_iff hrel
  rw [row, State.notify_release hpart hcomp]
  refine ⟨fun hn hle => ⟨?_, CompRing.held_sub_freed hwrite hrel hn hle, CompRing.freed_le_next hwrite hrel hn hle,
    fun hne => ⟨CompRing.room_of_release hwrite hrel hn hle hne, fun e q hqueue hwait hbus hlink => ?_⟩⟩, fun hbad => ?_⟩
  · exact congrArg Host.Outcome.next (if_pos ⟨hn, valid.2 hle⟩)
  · exact execCompletionEntryWrite_issues (s := { s with ring := { s.ring with comp := some { c with release := n } } })
      hpart hqueue rfl (CompRing.room_of_release hwrite hrel hn hle hne) hwait (by simp [Port.canIssue, hbus, hlink])
  · rw [if_neg fun ⟨hlt, hle⟩ => hbad.elim (fun h => absurd hlt (Nat.not_lt.2 h)) fun h => absurd (valid.1 hle) (not_le.2 h)]
    rfl

end Sys2Proof.Machine
end

section
/-!
The admission arbiter in the words of R150 and R151: its choice, an offer admitted as it is made, what each admission leaves,
and the offers of a stream one after another.
-/

namespace Sys2Proof.Machine

variable {s : State} {i : StreamId}

/-! ## Offers that may be chosen -/

/-- A producer with an offer that the arbiter may choose now. -/
def State.ready (s : State) (p : Producer) : Bool := (s.offer p).isSome && s.admissible p

theorem State.ready_iff {p : Producer} : s.ready p = true ↔ s.offer p ≠ none ∧ s.admissible p = true := by
  simp [State.ready, Option.isSome_iff_ne_none]

/-- A lane is passed by while an entry of it is in the queue (R151). -/
theorem State.admissible_lane_iff :
    s.admissible (.lane i) = true ↔ ∀ e ∈ s.ring.queue, e.source ≠ BitVec.ofNat 8 (8 + i.val) := by
  simp [State.admissible]

/-- The event that stood in a lane's latch at a drain end holds back the STOP (R132). -/
theorem Lane.holdsStop_iff {l : Lane} : l.holdsStop = true ↔ l.latch ≠ none ∧ l.beforeStop = true := by
  simp [Lane.holdsStop, Option.isSome_iff_ne_none]

theorem State.admissible_stream_false :
    s.admissible (.stream i) = false ↔ (s.lane i).latch ≠ none ∧ (s.lane i).beforeStop = true := by
  rw [← Lane.holdsStop_iff]
  simp [State.admissible]

/-- The admin unit is passed by while such a STOP of the stream its command names waits (log 18). -/
theorem State.admissible_admin_false : s.admissible .admin = false ↔
    ∃ e i, s.admin = .posting e (some i) ∧ (s.lane i).latch ≠ none ∧ (s.lane i).beforeStop = true := by
  simp only [← Lane.holdsStop_iff, State.admissible]
  rcases s.admin with _ | _ | _ | _ | ⟨e, _ | i⟩ <;> simp [AdminUnit.stream]

/-! ## The arbiter's choice -/

theorem find_roundFrom_eq_none {p : StreamId → Bool} {i : StreamId} : (roundFrom i).find? p = none ↔ ∀ j, ¬p j = true := by
  have all (j : StreamId) : j ∈ roundFrom i := by revert i j; decide
  rw [List.find?_eq_none]
  exact ⟨fun h j => h j (all j), fun h j _ => h j⟩

/-- The round-robin choice among the lanes (R151). -/
def State.laneChoice (s : State) : Option StreamId := (roundFrom s.ring.laneNext).find? fun i => s.ready (.lane i)

/-- The round-robin choice among the streams (R151). -/
def State.streamChoice (s : State) : Option StreamId := (roundFrom s.ring.streamNext).find? fun i => s.ready (.stream i)

/-- The categories in their order: lanes, streams, the raster unit, the admin unit (R150, R151). -/
theorem State.chooseOffer_eq (s : State) : s.chooseOffer =
    ((s.laneChoice.map Producer.lane).or (s.streamChoice.map Producer.stream)).or
      (if s.ready .raster then some .raster else if s.ready .admin then some .admin else none) := by
  have rest : [Producer.raster, .admin].find? s.ready =
      if s.ready .raster then some .raster else if s.ready .admin then some .admin else none := by
    cases hr : s.ready .raster <;> cases ha : s.ready .admin <;> simp [hr, ha]
  rw [← rest]
  simp only [State.chooseOffer, List.head?_filter, List.find?_append, List.find?_map]
  rfl

theorem State.chooseOffer_lane {j : StreamId} : s.chooseOffer = some (.lane j) ↔ s.laneChoice = some j := by
  rw [State.chooseOffer_eq]
  cases s.laneChoice with
  | some k => simp
  | none => cases s.streamChoice <;> simp; split <;> simp

theorem State.chooseOffer_stream {j : StreamId} :
    s.chooseOffer = some (.stream j) ↔ s.laneChoice = none ∧ s.streamChoice = some j := by
  rw [State.chooseOffer_eq]
  cases s.laneChoice with
  | some k => simp
  | none => cases s.streamChoice <;> simp; split <;> simp

theorem State.chooseOffer_raster :
    s.chooseOffer = some .raster ↔ s.laneChoice = none ∧ s.streamChoice = none ∧ s.ready .raster = true := by
  rw [State.chooseOffer_eq]
  cases s.laneChoice with
  | some k => simp
  | none => cases s.streamChoice <;> simp

theorem State.chooseOffer_admin : s.chooseOffer = some .admin ↔
    s.laneChoice = none ∧ s.streamChoice = none ∧ s.ready .raster = false ∧ s.ready .admin = true := by
  rw [State.chooseOffer_eq]
  cases s.laneChoice with
  | some k => simp
  | none => cases s.streamChoice <;> cases s.ready .raster <;> simp

/-! ## An offer admitted as it is made -/

theorem State.contenders_nodup (s : State) : s.contenders.Nodup :=
  (List.Nodup.filter _ (by decide : allProducers.Nodup)).filter _

/-- A producer is the only one that contends (R151). -/
theorem State.contenders_eq_singleton {p : Producer} :
    s.contenders = [p] ↔ s.ready p = true ∧ ∀ q, s.ready q = true → q = p := by
  have mem (q : Producer) : q ∈ s.contenders ↔ s.ready q = true := by simp [State.mem_contenders, State.ready]
  constructor
  · intro h
    exact ⟨(mem p).1 (by simp [h]), fun q hq => by simpa [h] using (mem q).2 hq⟩
  · rintro ⟨hp, only⟩
    refine List.perm_singleton.1 ((List.perm_ext_iff_of_nodup s.contenders_nodup (List.nodup_singleton p)).2 fun q => ?_)
    rw [mem, List.mem_singleton]
    exact ⟨only q, fun e => e ▸ hp⟩

theorem State.admitAsMade_admits {p : Producer} (hpart : s.port.part = .attached) (hroom : s.ring.queue.length < 16)
    (hp : s.ready p = true) (only : ∀ q, s.ready q = true → q = p) : s.admitAsMade p = s.admitOffer p :=
  if_pos ⟨hpart, hroom, State.contenders_eq_singleton.2 ⟨hp, only⟩⟩

theorem State.admitAsMade_waits {p : Producer} (h : 16 ≤ s.ring.queue.length ∨ ¬s.ready p = true ∨
    ∃ q, q ≠ p ∧ s.ready q = true) : s.admitAsMade p = s := by
  refine if_neg fun ⟨_, hroom, alone⟩ => ?_
  obtain ⟨hp, only⟩ := State.contenders_eq_singleton.1 alone
  rcases h with hfull | hno | ⟨q, hne, hq⟩
  · exact absurd hroom (Nat.not_lt.2 hfull)
  · exact hno hp
  · exact hne (only q hq)

/-- ENTRY_ADMISSION with a free place and a choice (R151). -/
theorem execEntryAdmission_admits {p : Producer} (hpart : s.port.part = .attached) (hroom : s.ring.queue.length < 16)
    (hp : s.chooseOffer = some p) : exec .entryAdmission s = .next ((s.admitOffer p).offerOn p) := by
  simp [exec, execEntryAdmission, hpart, hroom, Config.queueLimit, hp]

theorem execEntryAdmission_waits (h : 16 ≤ s.ring.queue.length ∨ s.chooseOffer = none) :
    exec .entryAdmission s = .next s := by
  simp only [exec, execEntryAdmission]
  split
  · next hc =>
    rw [h.resolve_left (Nat.not_le.2 hc.2)]
  · rfl

/-! ## What an admission leaves -/

/-- The extra field of LANE_HALTED, field by field (R175). -/
theorem haltedExtra_none (reason : BitVec 4) : haltedExtra reason none = 0x800#12 ++ reason ++ 0xFFFF#16 := by
  revert reason; decide

theorem haltedExtra_some (reason : BitVec 4) (band : Band) : haltedExtra reason (some band) = 0#12 ++ reason ++ band := by
  have high : 0#12 ++ reason = BitVec.ofNat 16 ((band.toNat + reason.toNat * 65536) >>> 16) := by
    rw [Nat.shiftRight_eq_div_pow, Nat.add_mul_div_right _ _ (by decide), Nat.div_eq_of_lt band.isLt, Nat.zero_add]
    revert reason; decide
  have low : BitVec.ofNat 16 (band.toNat + reason.toNat * 65536) = band := by
    apply BitVec.eq_of_toNat_eq
    have := band.isLt
    simp
    omega
  have joined := ofNat_append 16 16 (band.toNat + reason.toNat * 65536)
  rw [low, ← high] at joined
  exact joined.symm

theorem Lane.goOffline_eq_offline (l : Lane) : l.goOffline = l.offline := rfl

/-- An admitted event leaves its lane, which then takes a stop order that waited for nothing else (R130, R151). -/
theorem State.admitOffer_lane {e : Entry} (he : s.offer (.lane i) = some e) :
    let l : Lane := { s.lane i with latch := none, beforeStop := false }
    s.admitOffer (.lane i) =
      { s.setLane i (if l.stopPending = true ∧ l.state ≠ .sending ∧ l.state ≠ .cancelling then l.offline else l) with
        ring := { s.ring with queue := s.ring.queue ++ [e], laneNext := i + 1 } } := by
  intro l
  have settled : l.settle =
      if l.stopPending = true ∧ l.state ≠ .sending ∧ l.state ≠ .cancelling then l.offline else l := by
    simp [Lane.settle, Lane.goOffline_eq_offline, l, and_assoc]
  rw [← settled]
  simp only [State.admitOffer, he]
  rfl

/-- An admission of a stream's offer (R151). -/
theorem State.admitOffer_stream {e : Entry} (he : s.offer (.stream i) = some e) : s.admitOffer (.stream i) =
    { s.setStream i (s.stream i).admitted with
      ring := { s.ring with queue := s.ring.queue ++ [e], streamNext := i + 1 } } := by
  simp only [State.admitOffer, he]
  rfl

/-- Without a due STOP a stream offers its first due mark, which leaves the list (R25, R150). -/
theorem Stream.offer_mark {x : Stream} (hstop : ∀ d, x.dstop = some d → d.due = none) {before after : List Mark} {m : Mark}
    (hmarks : x.marks = before ++ m :: after) (hbefore : ∀ y ∈ before, y.st = .boundary) (hm : m.st ≠ .boundary) :
    x.offer i = some (markEntry i m) ∧ x.admitted = { x with marks := before ++ after } := by
  have due : x.dstop.bind (fun d => d.due) = none := by simpa using hstop
  have due' : x.dstop.bind (fun d => d.due.map fun y => (d, y)) = none := by simpa using hstop
  have first : x.marks.find? (fun m => m.st != .boundary) = some m := by
    rw [hmarks, List.find?_append, List.find?_eq_none.2 (by simpa using hbefore)]
    simp [hm]
  have dropped : dropDue x.marks = before ++ after := by
    rw [hmarks]
    clear hmarks
    induction before with
    | nil => simp [dropDue, hm]
    | cons y ys ih =>
      obtain ⟨hy, hys⟩ := List.forall_mem_cons.1 hbefore
      simp [dropDue, hy, ih hys]
  exact ⟨by simp [Stream.offer, due', first], by simp [Stream.admitted, due, first, dropped]⟩

/-- A due STOP is offered before any mark, and is then no longer owed (R39, log 25). -/
theorem Stream.offer_stop {x : Stream} {d : DeferredStop} {st : Status} {n : Band} (hstop : x.dstop = some d)
    (hdue : d.due = some (st, n)) : x.offer i = some (adminEntry 0x12#8 d.tag d.index d.head st (n.setWidth 32)) ∧
      x.admitted = { x with dstop := none } := by
  simp [Stream.offer, Stream.admitted, hstop, hdue]

/-! ## The offers of a stream, one after another -/

/-- The offers a stream has to make: its due STOP, its due marks and its due ABORT (R150). -/
def Stream.owed (x : Stream) : Nat :=
  (x.dstop.bind fun d => d.due).toList.length + (x.marks.filter fun m => m.st != .boundary).length +
    (x.dabort.filter fun d => d.due).toList.length

theorem owed_dropDue {ms : List Mark} {m : Mark} (h : ms.find? (fun m => m.st != .boundary) = some m) :
    ((dropDue ms).filter fun m => m.st != .boundary).length < (ms.filter fun m => m.st != .boundary).length := by
  induction ms with
  | nil => simp at h
  | cons y ys ih =>
    by_cases hy : y.st = .boundary
    · simp only [List.find?_cons, hy, bne_self_eq_false] at h
      simpa [dropDue, hy] using ih h
    · simp [dropDue, hy]

/-- An admission leaves a stream owing less (R25, R39, R50). -/
theorem Stream.owed_admitted {x : Stream} (h : (x.offer i).isSome = true) : x.admitted.owed < x.owed := by
  by_cases hstop : ∃ d, x.dstop = some d ∧ d.due.isSome = true
  · obtain ⟨d, hd, hdue⟩ := hstop
    obtain ⟨⟨st, n⟩, hdue⟩ := Option.isSome_iff_exists.1 hdue
    rw [(Stream.offer_stop (i := i) hd hdue).2]
    simp only [Stream.owed, hd, Option.bind_some, Option.bind_none, hdue, Option.toList_some, Option.toList_none,
      List.length_singleton, List.length_nil]
    omega
  · have hnone : ∀ d, x.dstop = some d → d.due = none := fun d hd =>
      Option.not_isSome_iff_eq_none.1 fun hdue => hstop ⟨d, hd, hdue⟩
    have due : x.dstop.bind (fun d => d.due) = none := by simpa using hnone
    have due' : x.dstop.bind (fun d => d.due.map fun y => (d, y)) = none := by simpa using hnone
    cases hm : x.marks.find? fun m => m.st != .boundary with
    | some m =>
      have := owed_dropDue hm
      simp only [Stream.owed, Stream.admitted, due, hm]
      omega
    | none =>
      simp only [Stream.offer, due', hm] at h
      cases hd : x.dabort with
      | none => simp [hd] at h
      | some d =>
        have hdue : d.due = true := by
          by_contra hno
          simp [hd, hno] at h
        simp [Stream.owed, Stream.admitted, due, hm, hd, hdue, Option.filter]

/-- A stream owes no more than a STOP, its marks and an ABORT. -/
theorem Stream.owed_le (x : Stream) : x.owed ≤ x.marks.length + 2 := by
  have stop := Option.length_toList_le (o := x.dstop.bind fun d => d.due)
  have marks := List.length_filter_le (fun m : Mark => m.st != .boundary) x.marks
  have abort := Option.length_toList_le (o := x.dabort.filter fun d => d.due)
  rw [Stream.owed]
  omega

/-- A stream whose offer was admitted as it was made owes less than before. -/
theorem State.admitAsMade_owed (i : StreamId) (s : State) : s.admitAsMade (.stream i) = s ∨
    ((s.admitAsMade (.stream i)).stream i).owed < (s.stream i).owed := by
  rcases State.admitAsMade_cases (.stream i) s with e | ⟨_, _, _, alone, e⟩
  · exact .inl e
  · have offered : (s.offer (.stream i)).isSome = true := ((s.mem_contenders _).1 (by simp [alone])).1
    rw [e, State.admit_stream, if_pos ⟨rfl, offered⟩]
    exact .inr (Stream.owed_admitted offered)

theorem repeat_succ_apply {α : Type} (f : α → α) (n : Nat) (x : α) : Nat.repeat f (n + 1) x = Nat.repeat f n (f x) := by
  induction n with
  | zero => rfl
  | succ n ih => exact congrArg f ih

theorem repeat_of_fixed {α : Type} {f : α → α} {x : α} (h : f x = x) (n : Nat) : Nat.repeat f n x = x := by
  induction n with
  | zero => rfl
  | succ n ih => rw [repeat_succ_apply, h, ih]

/-- Once a stream has had as many turns as it owes offers, a further turn changes nothing. -/
theorem State.repeat_admit_fixed (i : StreamId) {n : Nat} {s : State} (h : (s.stream i).owed ≤ n) :
    State.admitAsMade (.stream i) (Nat.repeat (State.admitAsMade (.stream i)) n s) =
      Nat.repeat (State.admitAsMade (.stream i)) n s := by
  induction n generalizing s with
  | zero =>
    refine (State.admitAsMade_owed i s).resolve_right fun hlt => ?_
    omega
  | succ n ih =>
    rw [repeat_succ_apply]
    rcases State.admitAsMade_owed i s with e | hlt
    · rw [e, repeat_of_fixed e, e]
    · exact ih (by omega)

/-- So a stream's offers end the same whatever more turns it has (R25, R150). -/
theorem State.offerStream_eq_repeat (i : StreamId) {n : Nat} {s : State} (h : (s.stream i).owed ≤ n) :
    s.offerStream i = Nat.repeat (State.admitAsMade (.stream i)) n s := by
  have settled (k : Nat) : Nat.repeat (State.admitAsMade (.stream i)) ((s.stream i).owed + k) s =
      Nat.repeat (State.admitAsMade (.stream i)) (s.stream i).owed s := by
    induction k with
    | zero => rfl
    | succ k ih => exact (State.repeat_admit_fixed i (Nat.le_add_right _ k)).trans ih
  rw [State.offerStream, ← Nat.add_sub_cancel' (Stream.owed_le (s.stream i)), settled, ← Nat.add_sub_cancel' h, settled]

theorem State.offerStream_step (i : StreamId) (s : State) :
    s.offerStream i = (s.admitAsMade (.stream i)).offerStream i := by
  rcases State.admitAsMade_owed i s with e | hlt
  · rw [e]
  · rw [State.offerStream_eq_repeat i (Nat.le_succ (s.stream i).owed), repeat_succ_apply,
      State.offerStream_eq_repeat i (Nat.le_of_lt hlt)]

/-- Settles O51: who may be chosen, the choice, the admissions, the events' entries, and a stream's offers. -/
theorem offersAreAdmittedByCategory : Obligations.OffersAreAdmittedByCategory := by
  refine ⟨fun s hpart => ?_, fun s i => ?_⟩
  · intro ready
    have ready_iff (p : Producer) : ready p ↔ s.ready p = true := State.ready_iff.symm
    have no_lane : s.laneChoice = none ↔ ∀ i, ¬s.ready (.lane i) = true := find_roundFrom_eq_none
    have no_stream : s.streamChoice = none ↔ ∀ i, ¬s.ready (.stream i) = true := find_roundFrom_eq_none
    have raster : s.ready .raster = true ↔ s.raster.offer ≠ none := State.ready_iff.trans (and_iff_left rfl)
    have no_raster : s.ready .raster = false ↔ s.raster.offer = none := by
      rw [← Bool.not_eq_true, raster, not_not]
    simp only [ready_iff]
    refine ⟨fun i => ⟨State.admissible_lane_iff, State.admissible_stream_false⟩, State.admissible_admin_false, fun n => ?_,
      fun n => ?_, ?_, ?_, execEntryAdmission_waits, fun hroom p hp => ⟨?_, fun hp' => ?_⟩,
      fun p => ⟨State.admitAsMade_admits hpart, State.admitAsMade_waits⟩⟩
    · rw [State.chooseOffer_lane, State.laneChoice, find_roundFrom_eq_some]
      simp only [Bool.not_eq_true]
    · rw [State.chooseOffer_stream, no_lane, State.streamChoice, find_roundFrom_eq_some]
      simp only [Bool.not_eq_true]
    · rw [State.chooseOffer_raster, no_lane, no_stream, raster]
    · rw [State.chooseOffer_admin, no_lane, no_stream, no_raster]
    · rintro i rfl
      exact execEntryAdmission_admits hpart hroom hp
    · rw [execEntryAdmission_admits hpart hroom hp]
      cases p with
      | stream i => exact absurd rfl (hp' i)
      | lane | raster | admin => rfl
  · intro joined takes
    have offered : s.offer (.lane i) = (s.lane i).latch.map (laneEntry i) := rfl
    refine ⟨?_, fun e he => State.admitOffer_lane he, fun e he => ?_, fun e x he => ?_,
      fun before m after hstop hmarks hbefore hm => ?_, fun d st n hstop hdue => ?_, State.offerStream_step i s,
      fun h => repeat_of_fixed h _⟩
    · intro event
      rw [offered]
      refine ⟨fun h => by rw [h]; rfl, fun h => by rw [h]; rfl, fun reason h => ?_, fun band => ⟨fun tag h => by rw [h]; rfl,
        fun h => by rw [h]; rfl, fun h => by rw [h]; rfl, fun reason h => ?_⟩⟩
      · rw [h, ← haltedExtra_none]; rfl
      · rw [h, ← haltedExtra_some]; rfl
    · have he' : s.offer .raster = some e := he
      simp only [State.admitOffer, he']
      rfl
    · have he' : s.offer .admin = some e := by simp [State.offer, he, AdminUnit.offer]
      simp only [State.admitOffer, he']
      rfl
    · obtain ⟨offer, admitted⟩ := Stream.offer_mark (i := i) hstop hmarks hbefore hm
      rw [State.admitOffer_stream offer, admitted]
      rfl
    · obtain ⟨offer, admitted⟩ := Stream.offer_stop (i := i) hstop hdue
      rw [State.admitOffer_stream offer, admitted]
      rfl

end Sys2Proof.Machine
end

section
/-!
The streams' rings, latches and configurations along a step (R22, R34, R49, R50, R58, R71, R141): the changes of one stream that
a step makes by the way, and those that one row alone makes.
-/

namespace Sys2Proof.Machine

/-! ## What the laws say of one stream -/

/-- R139 for one stream. -/
def Stream.RingOk (x : Stream) : Prop := ∀ r, x.ring = some r → r.Legal

/-- R58 for one stream. -/
def Stream.LatchOk (x : Stream) : Prop := x.latch ≠ .empty → x.takesRecords = true ∧
  ∃ r, x.ring = some r ∧ x.latch.index = some r.head ∧ r.head ≠ r.tail

/-- A ring whose records are passed over: its head is set to its tail (R46, R50). -/
def Ring.emptied (r : Ring) : Ring := { r with head := r.tail }

theorem Ring.Legal.advance {r : Ring} (h : r.Legal) : r.advance.Legal :=
  ⟨h.1, Nat.mod_lt _ (Nat.zero_lt_of_lt h.2.1), h.2.2⟩

theorem Ring.Legal.emptied {r : Ring} (h : r.Legal) : r.emptied.Legal := ⟨h.1, h.2.2, h.2.2⟩

theorem Ring.Legal.setTail {r : Ring} (h : r.Legal) {n : Nat} (hn : n < r.size) : ({ r with tail := n } : Ring).Legal :=
  ⟨h.1, h.2.1, hn⟩

theorem ringSizeOk_pos {n : Nat} (h : ringSizeOk n = true) : 0 < n := by
  obtain ⟨e, _, _, rfl⟩ := ringSizeOk_iff.1 h
  exact Nat.two_pow_pos e

/-- A ring as it is set up, with head and tail 0 (R34, R162). -/
theorem Ring.legal_zero (base : BitVec 64) {n : Nat} (h : ringSizeOk n = true) :
    ({ base := base, size := n, head := 0, tail := 0 } : Ring).Legal :=
  ⟨h, ringSizeOk_pos h, ringSizeOk_pos h⟩

theorem Stream.RingOk.map {x y : Stream} (h : x.RingOk) {f : Ring → Ring} (hy : y.ring = x.ring.map f)
    (hf : ∀ r : Ring, r.Legal → (f r).Legal) : y.RingOk := by
  intro r hr
  rw [hy, Option.map_eq_some_iff] at hr
  obtain ⟨q, hq, rfl⟩ := hr
  exact hf q (h q hq)

theorem Stream.latchOk_of_empty {x : Stream} (h : x.latch = .empty) : x.LatchOk := fun hne => absurd h hne

/-- The latch of a stream that takes no records is EMPTY (R58). -/
theorem Stream.LatchOk.empty {x : Stream} (h : x.LatchOk) (hx : x.takesRecords = false) : x.latch = .empty := by
  by_contra hne
  rw [(h hne).1] at hx
  cases hx

/-! ## Changes by the way -/

/-- Where a change leaves the head of a stream's ring. -/
inductive Stream.HeadMove (x y : Stream) : Prop
  /-- It stays; no latch is filled, no abort begins, and a READY stream stays so. -/
  | stays (ring : y.ring = x.ring) (latch : y.latch ≠ .empty → x.latch ≠ .empty) (abort : y.st = .aborting → x.st = .aborting)
      (ready : x.st = .ready → y.st = .ready)
  /-- The record in the latch is consumed (R71). -/
  | consumed (latch : x.latch ≠ .empty) (emptied : y.latch = .empty) (abort : y.st ≠ .aborting)
      (ring : y.ring = x.ring.map Ring.advance)
  /-- An abort ends (R50). -/
  | abortEnds (before : x.st = .aborting) (after : y.st = .ready) (latch : y.latch = .empty)
      (ring : y.ring = x.ring.map Ring.emptied)

/-- One after another: a record is consumed once at most, for its latch is EMPTY then, and an abort ends once at most. -/
theorem Stream.HeadMove.then {x y z : Stream} (h : x.HeadMove y) (h' : y.HeadMove z) : x.HeadMove z := by
  cases h with
  | stays ring latch abort ready =>
    cases h' with
    | stays ring' latch' abort' ready' =>
      exact .stays (ring'.trans ring) (fun e => latch (latch' e)) (fun e => abort (abort' e)) fun e => ready' (ready e)
    | consumed latch' emptied' abort' ring' => exact .consumed (latch latch') emptied' abort' (ring ▸ ring')
    | abortEnds before' after' latch' ring' => exact .abortEnds (abort before') after' latch' (ring ▸ ring')
  | consumed latch emptied abort ring =>
    cases h' with
    | stays ring' latch' abort' ready' =>
      exact .consumed latch (not_not.1 fun e => latch' e emptied) (fun e => abort (abort' e)) (ring'.trans ring)
    | consumed latch' emptied' abort' ring' => exact absurd emptied latch'
    | abortEnds before' after' latch' ring' => exact absurd before' abort
  | abortEnds before after latch ring =>
    cases h' with
    | stays ring' latch' abort' ready' =>
      exact .abortEnds before (ready' after) (not_not.1 fun e => latch' e latch) (ring'.trans ring)
    | consumed latch' emptied' abort' ring' => exact absurd latch latch'
    | abortEnds before' after' latch' ring' => rw [after] at before'; cases before'

/-- A change of a stream that a step makes by the way: the configuration stays, and where R49 and R58 hold they hold after it. -/
structure Stream.Quiet (x y : Stream) : Prop where
  cfg : y.cfg = x.cfg
  ring : x.RingOk → y.RingOk
  moves : x.AbortOk → x.LatchOk → y.AbortOk ∧ y.LatchOk ∧ x.HeadMove y

theorem Stream.Quiet.then {x y z : Stream} (h : x.Quiet y) (h' : y.Quiet z) : x.Quiet z where
  cfg := h'.cfg.trans h.cfg
  ring hx := h'.ring (h.ring hx)
  moves ha hl := by
    obtain ⟨ha, hl, move⟩ := h.moves ha hl
    obtain ⟨ha, hl, move'⟩ := h'.moves ha hl
    exact ⟨ha, hl, move.then move'⟩

/-- A change that keeps ring, latch, state and deferred ABORT. -/
theorem Stream.Quiet.of_eq {x y : Stream} (cfg : y.cfg = x.cfg) (ring : y.ring = x.ring) (latch : y.latch = x.latch)
    (st : y.st = x.st) (dabort : y.dabort = x.dabort) (abortAt : y.abortAt = x.abortAt) : x.Quiet y where
  cfg := cfg
  ring hx := by rw [Stream.RingOk, ring]; exact hx
  moves ha hl := ⟨by rw [Stream.AbortOk, dabort, st, abortAt]; exact ha,
    by rw [Stream.LatchOk, latch, Stream.takesRecords, st, ring]; exact hl,
    .stays ring (latch ▸ id) (st ▸ id) (st ▸ id)⟩

theorem Stream.Quiet.refl (x : Stream) : x.Quiet x := .of_eq rfl rfl rfl rfl rfl rfl

/-- A change that empties the latch or finds it EMPTY, outside an abort. -/
theorem Stream.Quiet.of_empty {x y : Stream} (cfg : y.cfg = x.cfg) (ring : y.ring = x.ring) (latch : y.latch = .empty)
    (dabort : y.dabort = x.dabort) (before : x.st ≠ .aborting) (after : y.st ≠ .aborting)
    (ready : x.st = .ready → y.st = .ready) : x.Quiet y where
  cfg := cfg
  ring hx := by rw [Stream.RingOk, ring]; exact hx
  moves ha _ := ⟨Stream.abortOk_of_not_due (dabort ▸ ha.not_due (.inl before)), Stream.latchOk_of_empty latch,
    .stays ring (fun e => absurd latch e) (fun e => absurd e after) ready⟩

/-- The record of a latch is consumed: head past it, latch EMPTY (R71). -/
theorem Stream.Quiet.of_consumed {x y : Stream} (cfg : y.cfg = x.cfg) (ring : y.ring = x.ring.map Ring.advance)
    (latched : x.latch ≠ .empty) (latch : y.latch = .empty) (dabort : y.dabort = x.dabort) (st : y.st = x.st)
    (takes : x.takesRecords = true) : x.Quiet y where
  cfg := cfg
  ring hx := hx.map ring fun _ => Ring.Legal.advance
  moves ha _ := by
    have before : x.st ≠ .aborting := Stream.not_aborting_of_emits (Stream.emits_of_takesRecords takes)
    exact ⟨Stream.abortOk_of_not_due (dabort ▸ ha.not_due (.inl before)), Stream.latchOk_of_empty latch,
      .consumed latched latch (st ▸ before) ring⟩

/-- The admission of a stream's offer: that of a due ABORT ends the abort, and any other leaves ring and latch (R25, R39,
R50). -/
theorem Stream.Quiet.admitted (x : Stream) : x.Quiet x.admitted := by
  rcases x.admitted_cases with e | ⟨ms, e⟩ | e | ⟨d, hd, hdue, e⟩
  · rw [e]; exact .of_eq rfl rfl rfl rfl rfl rfl
  · rw [e]; exact .of_eq rfl rfl rfl rfl rfl rfl
  · rw [e]; exact .refl x
  · rw [e]
    refine ⟨rfl, fun hx => hx.map rfl fun _ => Ring.Legal.emptied, fun ha hl => ?_⟩
    have hst : x.st = .aborting := (ha d hd hdue).1
    have hlatch : x.latch = .empty := hl.empty (by simp [Stream.takesRecords, hst])
    exact ⟨Stream.abortOk_of_not_due fun _ h => (by cases h), Stream.latchOk_of_empty hlatch,
      .abortEnds hst rfl hlatch rfl⟩

/-! ## A whole step of one stream -/

/-- What one row can do to a stream's ring and latch. -/
structure Stream.Turn (c : Instr) (x y : Stream) : Prop where
  ring : x.RingOk → y.RingOk
  latch : x.AbortOk → x.LatchOk → y.LatchOk
  head : x.AbortOk → x.LatchOk → ∀ r r', x.ring = some r → y.ring = some r' →
    r'.head = r.head ∨ (r.head ≠ r.tail ∧ r' = { r with head := (r.head + 1) % r.size }) ∨
      ((c = .abortStream ∨ (x.st = .aborting ∧ y.st = .ready)) ∧ r' = { r with head := r.tail }) ∨
      (c = .configureStream ∧ r'.head = 0 ∧ r'.tail = 0)

/-- A change by the way moves the head past the latched record, which the ring counts, or to the tail at an abort's end. -/
theorem Stream.Quiet.turn {x y : Stream} (h : x.Quiet y) (c : Instr) : x.Turn c y where
  ring := h.ring
  latch ha hl := (h.moves ha hl).2.1
  head ha hl r r' hr hr' := by
    obtain ⟨_, _, move⟩ := h.moves ha hl
    cases move with
    | stays ring =>
      rw [ring, hr, Option.some.injEq] at hr'
      exact .inl (by rw [hr'])
    | consumed latch _ _ ring =>
      obtain ⟨_, q, hq, _, hne⟩ := hl latch
      rw [hr, Option.some.injEq] at hq
      rw [ring, hr, Option.map_some, Option.some.injEq] at hr'
      exact .inr (.inl ⟨hq ▸ hne, hr'.symm⟩)
    | abortEnds before after _ ring =>
      rw [ring, hr, Option.map_some, Option.some.injEq] at hr'
      exact .inr (.inr (.inl ⟨.inr ⟨before, after⟩, hr'.symm⟩))

/-- A change that leaves the head, and a latch as R58 has it. -/
theorem Stream.Turn.of_head {c : Instr} {x y : Stream} (ring : x.RingOk → y.RingOk) (latch : x.LatchOk → y.LatchOk)
    (head : ∀ r r', x.ring = some r → y.ring = some r' → r'.head = r.head) : x.Turn c y :=
  ⟨ring, fun _ => latch, fun _ _ r r' hr hr' => .inl (head r r' hr hr')⟩

/-- A stream becomes UNCONFIGURED (R28, R35). -/
theorem Stream.Turn.of_none {c : Instr} {x y : Stream} (ring : y.ring = none) (latch : y.latch = .empty) : x.Turn c y :=
  .of_head (fun _ r hr => by simp [ring] at hr) (fun _ => Stream.latchOk_of_empty latch) fun _ r' _ hr' => by
    simp [ring] at hr'

end Sys2Proof.Machine
end

section
/-!
The changes that a step makes by the way, seen by the laws of the ring unit, the admin unit, the streams, the lanes' credit and
the bands held (R22, R139, R141, R146, R151, R109).
-/

namespace Sys2Proof.Machine

/-! ## Pages held and OPEN slots -/

/-- The pages a slot holds for a stream. -/
def BandSlot.held (i : StreamId) (b : BandSlot) : Nat := if b.stream = i then b.pages.length else 0

/-- Whether a slot is one of a stream's OPEN ones, as a number. -/
def BandSlot.openFor (i : StreamId) (b : BandSlot) : Nat := if b.stream = i ∧ b.st = .opened then 1 else 0

theorem State.pagesHeld_live (s : State) (i : StreamId) : s.pagesHeld i = (s.bands.live.map (BandSlot.held i)).sum := by
  rw [State.pagesHeld]
  induction s.bands.live with
  | nil => rfl
  | cons b l ih => by_cases h : b.stream = i <;> simp [BandSlot.held, h, ← ih]

theorem State.openCount_live (s : State) (i : StreamId) : s.openCount i = (s.bands.live.map (BandSlot.openFor i)).sum := by
  rw [State.openCount]
  induction s.bands.live with
  | nil => rfl
  | cons b l ih =>
    by_cases h : b.stream = i ∧ b.st = .opened
    · simp [BandSlot.openFor, h, ← ih, Nat.add_comm]
    · simp [BandSlot.openFor, h, ← ih]

/-- A sum over the slots that are not FREE, slot by slot. -/
theorem State.sum_live (s : State) (f : BandSlot → Nat) :
    (s.bands.live.map f).sum = ((List.finRange 64).map fun k => (s.slot k).elim 0 f).sum := by
  have slots : s.bands.slots.toList = (List.finRange 64).map s.slot :=
    List.ext_getElem (by simp) fun k _ _ => by simp [State.slot, Vector.get_eq_getElem]
  rw [Bands.live, slots]
  induction List.finRange 64 with
  | nil => rfl
  | cons k ks ih => cases h : s.slot k <;> simp_all

/-- Every slot of `t` was the same stream's in `s`, with no fewer pages, and OPEN if it is OPEN. -/
def State.SlotsShrink (s t : State) : Prop := ∀ k b, t.slot k = some b → ∃ a, s.slot k = some a ∧ a.stream = b.stream ∧
  b.pages.length ≤ a.pages.length ∧ (b.st = .opened → a.st = .opened)

/-- The stream holds no more pages in `t` than in `s`, and has no more OPEN slots. -/
def State.HoldsLess (i : StreamId) (s t : State) : Prop := t.pagesHeld i ≤ s.pagesHeld i ∧ t.openCount i ≤ s.openCount i

/-- The stream's pages held and OPEN slots are within its configuration (R22, R34). -/
def State.HoldsWithin (i : StreamId) (s : State) : Prop :=
  ∀ c, (s.stream i).cfg = some c → s.pagesHeld i ≤ c.quota ∧ s.openCount i ≤ c.window

theorem State.SlotsShrink.holdsLess {s t : State} (h : s.SlotsShrink t) (i : StreamId) : s.HoldsLess i t := by
  have slot (k : SlotId) : (t.slot k).elim 0 (BandSlot.held i) ≤ (s.slot k).elim 0 (BandSlot.held i) ∧
      (t.slot k).elim 0 (BandSlot.openFor i) ≤ (s.slot k).elim 0 (BandSlot.openFor i) := by
    cases ht : t.slot k with
    | none => exact ⟨Nat.zero_le _, Nat.zero_le _⟩
    | some b =>
      obtain ⟨a, hs, hstream, hpages, hopen⟩ := h k b ht
      simp only [hs, Option.elim, BandSlot.held, BandSlot.openFor, hstream]
      constructor
      · split
        · exact hpages
        · exact Nat.le_refl 0
      · split
        · next hb => rw [if_pos ⟨hb.1, hopen hb.2⟩]
        · exact Nat.zero_le _
  simp only [State.HoldsLess, State.pagesHeld_live, State.openCount_live, State.sum_live]
  exact ⟨List.sum_le_sum fun k _ => (slot k).1, List.sum_le_sum fun k _ => (slot k).2⟩

theorem State.holdsLess_of_bands {s t : State} (h : t.bands = s.bands) (i : StreamId) : s.HoldsLess i t := by
  simp [State.HoldsLess, State.pagesHeld, State.openCount, h]

/-- A stream without slots holds nothing. -/
theorem State.holds_nothing {s : State} {i : StreamId} (h : ∀ k b, s.slot k = some b → b.stream ≠ i) :
    s.pagesHeld i = 0 ∧ s.openCount i = 0 := by
  have none_live (b : BandSlot) (hb : b ∈ s.bands.live) : b.stream ≠ i := by
    obtain ⟨k, hk⟩ := (Bands.mem_live _ b).1 hb
    exact h k b hk
  rw [State.pagesHeld_live, State.openCount_live, List.sum_eq_zero_iff, List.sum_eq_zero_iff]
  simp only [List.mem_map, forall_exists_index, and_imp]
  exact ⟨fun _ b hb e => by rw [← e, BandSlot.held, if_neg (none_live b hb)],
    fun _ b hb e => by rw [← e, BandSlot.openFor, if_neg fun hc => none_live b hb hc.1]⟩

/-- A band that is opened adds its pages and one OPEN slot to its stream, and nothing to another (R5, R22). -/
theorem State.openNew_holds {s : State} (i j : StreamId) {k : SlotId} (band : Band) (pages : Nat) (hk : s.slot k = none) :
    (s.openNew i k band pages).pagesHeld j ≤ s.pagesHeld j + (if i = j then pages else 0) ∧
      (s.openNew i k band pages).openCount j = s.openCount j + (if i = j then 1 else 0) := by
  have before := Bands.live_perm s.bands k
  have after := fun x => Bands.live_putAt s.bands (s.openNew i k band pages).bands k x
  have hk' : s.bands.slots.get k = none := hk
  rw [hk'] at before
  simp only [State.pagesHeld_live, State.openCount_live, ((after _ rfl).map _).sum_eq, (before.map _).sum_eq]
  by_cases h : i = j <;> simp [BandSlot.held, BandSlot.openFor, h, Nat.add_comm]

/-! ## The queue -/

/-- The number of entries of lane `i` in a list. -/
def laneEntries (i : StreamId) (l : List Entry) : Nat := (l.filter fun e => e.source == BitVec.ofNat 8 (8 + i.val)).length

theorem laneEntries_append (i : StreamId) (l l' : List Entry) :
    laneEntries i (l ++ l') = laneEntries i l + laneEntries i l' := by
  simp [laneEntries]

/-- An entry with a source below 8 is no lane's (R146). -/
theorem laneEntries_of_source {e : Entry} (h : e.source.toNat < 8) (i : StreamId) : laneEntries i [e] = 0 := by
  have other : e.source ≠ BitVec.ofNat 8 (8 + i.val) := fun he => by
    rw [he, BitVec.toNat_ofNat] at h
    omega
  simp [laneEntries, other]

theorem laneEntries_of_lane {e : Entry} {i j : StreamId} (h : e.source = BitVec.ofNat 8 (8 + j.val)) (hij : j ≠ i) :
    laneEntries i [e] = 0 := by
  have other : ∀ i j : StreamId, j ≠ i → BitVec.ofNat 8 (8 + j.val) ≠ BitVec.ofNat 8 (8 + i.val) := by decide
  simp [laneEntries, h, other i j hij]

/-- The law by what it sees: the queue, what the raster unit offers, and what the admin unit holds (R146, R151). -/
theorem State.QueueLaw.of_eq {s t : State} (h : s.QueueLaw) (queue : t.ring.queue = s.ring.queue)
    (raster : ∀ e, t.raster.offer = some e → s.raster.offer = some e ∨ e.source.toNat < 8)
    (admin : ∀ e i, t.admin = .posting e i ∨ t.admin = .awaiting e i →
      (s.admin = .posting e i ∨ s.admin = .awaiting e i) ∨ e.source.toNat < 8) : t.QueueLaw := by
  obtain ⟨len, lanes, hraster, hadmin⟩ := h
  refine ⟨queue ▸ len, queue ▸ lanes, fun e he => ?_, fun e i he => ?_⟩
  · exact (raster e he).elim (hraster e) id
  · exact (admin e i he).elim (hadmin e i) id

/-- An entry that leaves the queue's head keeps the law (R147). -/
theorem State.QueueLaw.of_tail {s t : State} (h : s.QueueLaw) {e : Entry} (queue : s.ring.queue = e :: t.ring.queue)
    (raster : t.raster = s.raster) (admin : t.admin = s.admin) : t.QueueLaw := by
  obtain ⟨len, lanes, hraster, hadmin⟩ := h
  rw [queue] at len lanes
  refine ⟨Nat.le_of_succ_le len, fun i => Nat.le_trans ?_ (lanes i), raster ▸ hraster, admin ▸ hadmin⟩
  exact ((List.sublist_cons_self e _).filter _).length_le

/-- Into a free place the arbiter admits no second entry of a lane (R151). -/
theorem State.QueueLaw.admitOffer {s : State} (h : s.QueueLaw) {p : Producer} (room : s.ring.queue.length < Config.queueLimit)
    (free : s.admissible p = true) : (s.admitOffer p).QueueLaw := by
  obtain ⟨len, lanes, hraster, hadmin⟩ := h
  cases he : s.offer p with
  | none =>
    rw [show s.admitOffer p = s by simp [State.admitOffer, he]]
    exact ⟨len, lanes, hraster, hadmin⟩
  | some e =>
    have queue : (s.admitOffer p).ring.queue = s.ring.queue ++ [e] := by rw [State.admit_queue, he]; rfl
    refine ⟨?_, fun i => ?_, ?_⟩
    · rw [queue, List.length_append]
      exact room
    · show laneEntries i _ ≤ 1
      rw [queue, laneEntries_append]
      have before : laneEntries i s.ring.queue ≤ 1 := lanes i
      have none_else (h : e.source.toNat < 8) : laneEntries i s.ring.queue + laneEntries i [e] ≤ 1 := by
        rw [laneEntries_of_source h]
        exact before
      obtain ⟨lane, stream⟩ := State.offer_source s p e he
      cases p with
      | lane j =>
        by_cases hij : j = i
        · subst hij
          have gone : laneEntries j s.ring.queue = 0 := by
            simpa [laneEntries] using State.admissible_lane_iff.1 free
          have one : laneEntries j [e] ≤ 1 := List.length_filter_le _ [e]
          omega
        · rw [laneEntries_of_lane (lane j rfl) hij]
          exact before
      | stream j => exact none_else (stream j rfl)
      | raster => exact none_else (hraster e he)
      | admin =>
        refine none_else ?_
        cases ha : s.admin with
        | posting e' i' =>
          simp only [State.offer, ha, AdminUnit.offer, Option.some.injEq] at he
          exact he ▸ hadmin e' i' (.inl ha)
        | _ => simp [State.offer, ha, AdminUnit.offer] at he
    · cases p with
      | lane | stream => simpa [State.HeldLaw] using And.intro hraster hadmin
      | raster =>
        refine ⟨fun e' h' => ?_, by simpa using hadmin⟩
        simp [State.admitOffer, he, State.released, RasterUnit.offer] at h'
      | admin =>
        refine ⟨by simpa using hraster, fun e' i' h' => ?_⟩
        simp [State.admitOffer, he, State.released] at h'

end Sys2Proof.Machine
end

section
/-!
What a step does by the way: the relation that every shared operation keeps, one lemma for each kind of change.
-/

namespace Sys2Proof.Machine

/-! ## The admin ring and the admin unit -/

/-- The admin ring stays, and no command is taken. -/
def State.AdminStays (s t : State) : Prop :=
  t.ring.admin = s.ring.admin ∧ ∀ bs n met, t.admin = .fetched bs n met → s.admin = .fetched bs n met

/-- The row `c` has carried out the taken command, and the admin ring is past it (R29, R141, log 3). -/
def State.AdminPasses (c : Instr) (s t : State) : Prop := ∃ bs n met r, s.admin = .fetched bs n met ∧
  s.ring.admin = some r ∧ rowTakes bs = c ∧ t.ring.admin = some (r.passed met) ∧ ∀ bs n met, t.admin ≠ .fetched bs n met

/-- A command's ring is passed once in a step. -/
theorem State.AdminPasses.after_stays {c : Instr} {s t u : State} (h : s.AdminStays t) (h' : t.AdminPasses c u) :
    s.AdminPasses c u := by
  obtain ⟨bs, n, met, r, hadmin, hring, hrow, hpast, idle⟩ := h'
  exact ⟨bs, n, met, r, h.2 _ _ _ hadmin, h.1 ▸ hring, hrow, hpast, idle⟩

theorem State.AdminPasses.then_stays {c : Instr} {s t u : State} (h : s.AdminPasses c t) (h' : t.AdminStays u) :
    s.AdminPasses c u := by
  obtain ⟨bs, n, met, r, hadmin, hring, hrow, hpast, idle⟩ := h
  exact ⟨bs, n, met, r, hadmin, hring, hrow, h'.1.trans hpast, fun bs n met e => idle bs n met (h'.2 bs n met e)⟩

theorem State.admin_then {c : Instr} {s t u : State} (h : s.AdminStays t ∨ s.AdminPasses c t)
    (h' : t.AdminStays u ∨ t.AdminPasses c u) : s.AdminStays u ∨ s.AdminPasses c u := by
  rcases h with h | h
  · rcases h' with h' | h'
    · exact .inl ⟨h'.1.trans h.1, fun bs n met e => h.2 bs n met (h'.2 bs n met e)⟩
    · exact .inr (.after_stays h h')
  · rcases h' with h' | ⟨bs, n, met, _, hadmin, _⟩
    · exact .inr (h.then_stays h')
    · obtain ⟨_, _, _, _, _, _, _, _, idle⟩ := h
      exact absurd hadmin (idle bs n met)

/-! ## The two relations -/

/-- A change within the row `c` that the laws of the ring unit, the admin unit and the lanes' credit bear, whatever it does to
the streams and the bands. -/
structure State.Steady (c : Instr) (s t : State) : Prop where
  comp : (∀ k, s.ring.comp = some k → k.Legal) → ∀ k, t.ring.comp = some k → k.Legal
  credit : s.CreditLaw → t.CreditLaw
  queue : s.QueueLaw → t.QueueLaw
  admin : s.AdminStays t ∨ s.AdminPasses c t

/-- A change within the row `c` that the laws of the streams bear too (R22, R58, R139). -/
structure State.Quiet (c : Instr) (s t : State) : Prop extends State.Steady c s t where
  held : ∀ i, s.HoldsLess i t ∨ t.HoldsWithin i
  streams : ∀ i, (s.stream i).Quiet (t.stream i)

variable {c : Instr} {s t u : State}

theorem State.Steady.then (h : State.Steady c s t) (h' : State.Steady c t u) : State.Steady c s u where
  comp hs := h'.comp (h.comp hs)
  credit hs := h'.credit (h.credit hs)
  queue hs := h'.queue (h.queue hs)
  admin := State.admin_then h.admin h'.admin

/-- A change beside the ring unit, the admin unit, the raster unit and the lanes. -/
theorem State.Steady.of_units (ring : t.ring = s.ring) (admin : t.admin = s.admin) (raster : t.raster = s.raster)
    (lanes : t.lanes = s.lanes) : State.Steady c s t where
  comp hs := ring ▸ hs
  credit hs i := by rw [State.lane_congr lanes]; exact hs i
  queue hs := hs.of_eq (by rw [ring]) (fun _ he => .inl (raster ▸ he)) fun _ _ he => .inl (admin ▸ he)
  admin := .inl ⟨by rw [ring], fun _ _ _ e => admin ▸ e⟩

theorem State.Steady.refl (c : Instr) (s : State) : State.Steady c s s := .of_units rfl rfl rfl rfl

theorem State.Quiet.then (h : State.Quiet c s t) (h' : State.Quiet c t u) : State.Quiet c s u where
  toSteady := h.toSteady.then h'.toSteady
  streams i := (h.streams i).then (h'.streams i)
  held i := by
    rcases h'.held i with less | within
    · refine (h.held i).imp (fun before => ⟨less.1.trans before.1, less.2.trans before.2⟩) fun before k hk => ?_
      obtain ⟨pages, opened⟩ := before k ((h'.streams i).cfg ▸ hk)
      exact ⟨less.1.trans pages, less.2.trans opened⟩
    · exact .inr within

/-- A change beside the streams and the bands. -/
theorem State.Steady.quiet (h : State.Steady c s t) (streams : t.streams = s.streams) (bands : t.bands = s.bands) :
    State.Quiet c s t where
  toSteady := h
  held i := .inl (State.holdsLess_of_bands bands i)
  streams i := by rw [State.stream_congr streams]; exact .refl _

theorem State.Quiet.refl (c : Instr) (s : State) : State.Quiet c s s := (State.Steady.refl c s).quiet rfl rfl

/-! ## One kind of change each -/

/-- The system port is not seen. -/
theorem State.Quiet.port (h : State.Quiet c s t) (p : Port) : State.Quiet c s { t with port := p } :=
  h.then <| State.Steady.quiet (t := { t with port := p }) (.of_units rfl rfl rfl rfl) rfl rfl

/-- Nor are intake's arbiters. -/
theorem State.Quiet.intake (h : State.Quiet c s t) (n : Intake) : State.Quiet c s { t with intake := n } :=
  h.then <| State.Steady.quiet (t := { t with intake := n }) (.of_units rfl rfl rfl rfl) rfl rfl

/-- Lanes whose credit does not grow past 15. -/
theorem State.Steady.of_lanes (h : State.Steady c s t) (v : Vector Lane 4)
    (hv : ∀ i, (v.get i).credit ≤ (t.lane i).credit ∨ (v.get i).credit ≤ Config.creditLimit) :
    State.Steady c s { t with lanes := v } :=
  h.then
    { comp := id
      credit := fun ht i => (hv i).elim (fun le => le.trans (ht i)) id
      queue := fun ht => ht.of_eq rfl (fun _ => .inl) fun _ _ => .inl
      admin := .inl ⟨rfl, fun _ _ _ => id⟩ }

theorem State.Steady.mapLane (h : State.Steady c s t) {i : StreamId} {f : Lane → Lane}
    (hf : (f (t.lane i)).credit ≤ (t.lane i).credit ∨ (f (t.lane i)).credit ≤ Config.creditLimit) :
    State.Steady c s (t.mapLane i f) :=
  h.of_lanes _ fun j => by
    rw [putAt_get]
    split
    · next hj => rw [hj]; exact hf
    · exact .inl (Nat.le_refl _)

theorem State.Quiet.mapLane (h : State.Quiet c s t) {i : StreamId} {f : Lane → Lane}
    (hf : (f (t.lane i)).credit ≤ (t.lane i).credit ∨ (f (t.lane i)).credit ≤ Config.creditLimit) :
    State.Quiet c s (t.mapLane i f) :=
  h.then (((State.Steady.refl c t).mapLane hf).quiet rfl rfl)

/-- A change of a lane that keeps its credit. -/
theorem State.Quiet.keepCredit (h : State.Quiet c s t) {i : StreamId} {f : Lane → Lane}
    (hf : (f (t.lane i)).credit = (t.lane i).credit) : State.Quiet c s (t.mapLane i f) :=
  h.mapLane (.inl (Nat.le_of_eq hf))

theorem State.Quiet.mapStream (h : State.Quiet c s t) {i : StreamId} {f : Stream → Stream}
    (hf : (t.stream i).Quiet (f (t.stream i))) : State.Quiet c s (t.mapStream i f) :=
  h.then
    { toSteady := .of_units rfl rfl rfl rfl
      held := fun j => .inl (State.holdsLess_of_bands rfl j)
      streams := fun j => by
        rw [State.stream_mapStream]
        split
        · next hj => rw [hj]; exact hf
        · exact .refl _ }

/-- Slots that hold no more than before. -/
theorem State.Quiet.bands (h : State.Quiet c s t) {b : Bands} (hb : t.SlotsShrink { t with bands := b }) :
    State.Quiet c s { t with bands := b } :=
  h.then
    { toSteady := .of_units rfl rfl rfl rfl
      held := fun j => .inl (hb.holdsLess j)
      streams := fun _ => .refl _ }

/-- A raster unit that offers nothing new but an entry that is no lane's (R146). -/
theorem State.Quiet.raster (h : State.Quiet c s t) {x : RasterUnit}
    (hx : ∀ e, x.offer = some e → t.raster.offer = some e ∨ e.source.toNat < 8) : State.Quiet c s { t with raster := x } :=
  h.then <| State.Steady.quiet
    { comp := id
      credit := id
      queue := fun ht => ht.of_eq rfl hx fun _ _ => .inl
      admin := .inl ⟨rfl, fun _ _ _ => id⟩ } rfl rfl

/-- An admin unit that takes no command and holds nothing new but an entry that is no lane's (R146). -/
theorem State.Quiet.adminUnit (h : State.Quiet c s t) {x : AdminUnit} (hx : ∀ bs n met, x ≠ .fetched bs n met)
    (he : ∀ e i, x = .posting e i ∨ x = .awaiting e i → (t.admin = .posting e i ∨ t.admin = .awaiting e i) ∨
      e.source.toNat < 8) : State.Quiet c s { t with admin := x } :=
  h.then <| State.Steady.quiet
    { comp := id
      credit := id
      queue := fun ht => ht.of_eq rfl (fun _ => .inl) he
      admin := .inl ⟨rfl, fun bs n met e => absurd e (hx bs n met)⟩ } rfl rfl

/-! ## Admissions -/

theorem Lane.settle_credit (l : Lane) : l.settle.credit ≤ l.credit := by
  unfold Lane.settle
  split
  · exact Nat.zero_le _
  · exact Nat.le_refl _

theorem State.admitOffer_admin (p : Producer) (s : State) :
    (s.admitOffer p).admin = s.admin ∨ (s.admitOffer p).admin = .idle := by
  cases p with
  | admin =>
    unfold State.admitOffer
    split
    · exact .inl rfl
    · exact .inr rfl
  | lane | stream | raster => exact .inl (by simp)

/-- An admission into a free place (R151). -/
theorem State.Quiet.admitOffer (h : State.Quiet c s t) {p : Producer} (room : t.ring.queue.length < Config.queueLimit)
    (free : t.admissible p = true) : State.Quiet c s (t.admitOffer p) := by
  obtain ⟨admin, comp, _⟩ := t.admit_rings p
  refine h.then ⟨⟨fun ht => comp ▸ ht, fun ht i => ?_, fun ht => ht.admitOffer room free, .inl ⟨admin, ?_⟩⟩,
    fun i => .inl (State.holdsLess_of_bands (t.admitOffer_bands p) i), fun i => ?_⟩
  · rw [State.admit_lane]
    split
    · exact (Lane.settle_credit _).trans (ht i)
    · exact ht i
  · intro bs n met e
    rcases t.admitOffer_admin p with same | idle
    · rw [← same]; exact e
    · rw [idle] at e; cases e
  · rw [State.admit_stream]
    split
    · exact .admitted _
    · exact .refl _

theorem State.Quiet.admitAsMade (h : State.Quiet c s t) (p : Producer) : State.Quiet c s (t.admitAsMade p) := by
  rcases State.admitAsMade_cases p t with e | ⟨_, room, free, _, e⟩
  · rw [e]; exact h
  · rw [e]; exact h.admitOffer room free

theorem State.Quiet.offerStream (h : State.Quiet c s t) (i : StreamId) : State.Quiet c s (t.offerStream i) := by
  unfold State.offerStream
  generalize (t.stream i).marks.length + 2 = n
  induction n with
  | zero => exact h
  | succ n ih => exact ih.admitAsMade _

end Sys2Proof.Machine
end

section
/-!
The lanes' shared operations are changes by the way, and so are stream control's and the band manager's (chapters 1, 2, 5, 6).
-/

namespace Sys2Proof.Machine

/-! ## The credit of a lane (R109) -/

@[simp] theorem Lane.transmit_credit (b : Bands) (i : StreamId) (l : Lane) : (l.transmit b i).credit = l.credit := by
  unfold Lane.transmit
  split
  · rfl
  · simp only
    split <;> rfl

@[simp] theorem Lane.send_credit (b : Bands) (i : StreamId) (f : Frame) (l : Lane) : (l.send b i f).credit = l.credit :=
  Lane.transmit_credit b i _

theorem Lane.transmissionEnds_credit (b : Bands) (i : StreamId) (l : Lane) : (l.transmissionEnds b i).credit = l.credit := by
  simp only [Lane.transmissionEnds]
  split
  · rfl
  · split
    · exact Lane.transmit_credit b i _
    · split <;> rfl

variable {c : Instr} {s t : State}

/-- A lane that goes OFFLINE has no credit (R121). -/
theorem State.Quiet.goOffline (h : State.Quiet c s t) (i : StreamId) : State.Quiet c s (t.mapLane i Lane.goOffline) :=
  h.mapLane (.inr (Nat.zero_le _))

theorem State.Quiet.settleLane (h : State.Quiet c s t) (i : StreamId) : State.Quiet c s (t.settleLane i) :=
  h.mapLane (.inl (Lane.settle_credit _))

/-! ## Events and counters -/

theorem State.Quiet.postEvent (h : State.Quiet c s t) (i : StreamId) (ev : LaneEvent) : State.Quiet c s (t.postEvent i ev) := by
  unfold State.postEvent
  split
  · exact h
  · exact State.Quiet.admitAsMade (h.keepCredit rfl) _

theorem State.Quiet.countStale (h : State.Quiet c s t) (i : StreamId) : State.Quiet c s (t.countStale i) := by
  unfold State.countStale
  split
  · exact h.keepCredit rfl
  · exact h

theorem State.Quiet.countBad (h : State.Quiet c s t) (i : StreamId) : State.Quiet c s (t.countBad i) := by
  unfold State.countBad
  split
  · exact h.keepCredit rfl
  · exact h

theorem State.Quiet.countResend (h : State.Quiet c s t) (i : StreamId) : State.Quiet c s (t.countResend i) := by
  unfold State.countResend
  split
  · exact h.keepCredit rfl
  · exact h

theorem State.Quiet.laneHalted (h : State.Quiet c s t) (i : StreamId) (reason : BitVec 4) (band : Option Band) :
    State.Quiet c s (t.laneHalted i reason band) := by
  have halted : State.Quiet c s (t.mapLane i fun l => { l.dropOut with state := .halted, progress := none }) :=
    h.keepCredit rfl
  exact (halted.postEvent i _).settleLane i

theorem State.Quiet.laneLost (h : State.Quiet c s t) (i : StreamId) : State.Quiet c s (t.laneLost i) := by
  have lost : State.Quiet c s (t.mapLane i fun l => { l.dropOut with state := .lost, progress := none }) := h.keepCredit rfl
  exact (lost.postEvent i _).settleLane i

theorem State.Quiet.enterSyncing (h : State.Quiet c s t) (i : StreamId) : State.Quiet c s (t.enterSyncing i) :=
  h.keepCredit rfl

/-! ## Slots -/

/-- A slot's change that keeps its stream, takes no page in and opens nothing. -/
theorem State.Quiet.mapSlot (h : State.Quiet c s t) (k : SlotId) {f : BandSlot → BandSlot}
    (hf : ∀ b, (f b).stream = b.stream ∧ (f b).pages.length ≤ b.pages.length ∧ ((f b).st = .opened → b.st = .opened)) :
    State.Quiet c s (t.mapSlot k f) := by
  refine h.bands fun j b hb => ?_
  change (t.mapSlot k f).slot j = some b at hb
  rw [State.slot_mapSlot] at hb
  split at hb
  · next hj =>
    obtain ⟨a, ha, rfl⟩ := Option.map_eq_some_iff.1 hb
    obtain ⟨hstream, hpages, hopen⟩ := hf a
    exact ⟨a, hj ▸ ha, hstream.symm, hpages, hopen⟩
  · exact ⟨b, hb, rfl, Nat.le_refl _, id⟩

/-- A change of the band table alone, under which the slots hold no more. -/
theorem State.Quiet.slots (h : State.Quiet c s t) {u : State} (hu : u = { t with bands := u.bands }) (hs : t.SlotsShrink u) :
    State.Quiet c s u := by
  rw [hu] at hs ⊢
  exact h.bands hs

theorem State.Quiet.freeSlot (h : State.Quiet c s t) (k : SlotId) : State.Quiet c s (t.freeSlot k) := by
  refine h.slots (by unfold State.freeSlot; split <;> rfl) fun j b hb => ?_
  rw [State.freeSlot_slot] at hb
  split at hb
  · cases hb
  · exact ⟨b, hb, rfl, Nat.le_refl _, id⟩

theorem State.Quiet.freeAll (h : State.Quiet c s t) (i : StreamId) : State.Quiet c s (t.freeAll i) := by
  unfold State.freeAll
  generalize t.slotsByDistance i = ks
  induction ks generalizing t with
  | nil => exact h
  | cons k ks ih => exact ih (h.freeSlot k)

theorem State.Quiet.discardSlot (h : State.Quiet c s t) (k : SlotId) : State.Quiet c s (t.discardSlot k) := by
  refine h.slots (by unfold State.discardSlot; split <;> rfl) fun j b hb => ?_
  rw [State.discardSlot_slot] at hb
  split at hb
  · next hj =>
    obtain ⟨a, ha, rfl⟩ := Option.map_eq_some_iff.1 hb
    exact ⟨a, hj ▸ ha, rfl, Nat.zero_le _, fun e => by cases e⟩
  · exact ⟨b, hb, rfl, Nat.le_refl _, id⟩

theorem State.Quiet.autoClose (h : State.Quiet c s t) (i : StreamId) : State.Quiet c s (t.autoClose i) := by
  refine h.slots rfl fun j b hb => ?_
  rw [State.autoClose_slot] at hb
  obtain ⟨a, ha, rfl⟩ := Option.map_eq_some_iff.1 hb
  refine ⟨a, ha, ?_⟩
  split
  · exact ⟨rfl, Nat.le_refl _, fun e => by cases e⟩
  · exact ⟨rfl, Nat.le_refl _, id⟩

/-- Band memory is not seen. -/
theorem State.Quiet.rowWritten (h : State.Quiet c s t) (op : Op) : State.Quiet c s { t with bands := op.writeRow t.bands } :=
  h.bands fun _ b hb => ⟨b, hb, rfl, Nat.le_refl _, id⟩

theorem State.Quiet.passBand (h : State.Quiet c s t) (i : StreamId) (k : SlotId) : State.Quiet c s (t.passBand i k) :=
  (h.freeSlot k).mapStream (.of_eq rfl rfl rfl rfl rfl rfl)

theorem State.Quiet.skipBand (h : State.Quiet c s t) (i : StreamId) (k : SlotId) : State.Quiet c s (t.skipBand i k) :=
  (h.passBand i k).offerStream i

/-! ## The emission of a band -/

theorem State.Quiet.startCancel (h : State.Quiet c s t) (i : StreamId) : State.Quiet c s (t.startCancel i) := by
  unfold State.startCancel
  exact h.keepCredit (Lane.send_credit _ i _ _)

theorem State.Quiet.startBand (h : State.Quiet c s t) (i : StreamId) (k : SlotId) : State.Quiet c s (t.startBand i k) := by
  unfold State.startBand
  split
  · have sent : State.Quiet c s (t.mapSlot k fun b => { b with st := .sending }) :=
      h.mapSlot k fun _ => ⟨rfl, Nat.le_refl _, fun e => by cases e⟩
    exact sent.keepCredit (Lane.send_credit _ i _ _)
  · exact h

theorem State.Quiet.sendChunk (h : State.Quiet c s t) (i : StreamId) (k : Nat) : State.Quiet c s (t.sendChunk i k) :=
  h.keepCredit (Lane.send_credit _ i _ _)

theorem State.Quiet.sendTrailer (h : State.Quiet c s t) (i : StreamId) : State.Quiet c s (t.sendTrailer i) :=
  h.keepCredit (Lane.send_credit _ i _ _)

theorem State.Quiet.postSent (h : State.Quiet c s t) (i : StreamId) (b : BandSlot) : State.Quiet c s (t.postSent i b) := by
  unfold State.postSent
  split
  · exact h.postEvent i _
  · exact h

theorem State.Quiet.sentBand (h : State.Quiet c s t) (i : StreamId) (k : SlotId) : State.Quiet c s (t.sentBand i k) := by
  unfold State.sentBand
  split
  · exact h
  · exact ((h.passBand i k).offerStream i).postSent i _

theorem State.Quiet.bandEmitted (h : State.Quiet c s t) (i : StreamId) : State.Quiet c s (t.bandEmitted i) := by
  have idle {u : State} (hu : State.Quiet c s u) :
      State.Quiet c s ((u.mapLane i fun l => { l with state := .idle, progress := none }).settleLane i) :=
    (hu.keepCredit (f := fun l => { l with state := .idle, progress := none }) rfl).settleLane i
  unfold State.bandEmitted
  split
  · exact idle h
  · exact idle (h.sentBand i _)

/-! ## Replies and timers -/

theorem State.Quiet.acceptTaken (h : State.Quiet c s t) (i : StreamId) (o : Outstanding) :
    State.Quiet c s (t.acceptTaken i o) := by
  have accepted : State.Quiet c s (t.mapLane i (Lane.accepted o)) := h.keepCredit rfl
  simp only [State.acceptTaken]
  split
  · exact (State.Quiet.postEvent (accepted.mapLane (.inr (Nat.zero_le _))) i _).settleLane i
  · have spent : State.Quiet c s ((t.mapLane i (Lane.accepted o)).mapLane i fun l => { l with credit := l.credit - 1 }) :=
      accepted.mapLane (.inl (Nat.sub_le _ _))
    split
    · exact spent.startCancel i
    · split
      · exact spent.sendTrailer i
      · exact spent.sendChunk i 0
  · split
    · exact accepted.startCancel i
    · split
      · exact accepted.sendChunk i _
      · exact accepted.sendTrailer i
  · exact accepted.bandEmitted i
  · exact accepted.goOffline i

theorem State.Quiet.exhausted (h : State.Quiet c s t) (i : StreamId) (o : Outstanding) :
    State.Quiet c s (t.exhausted i o) := by
  unfold State.exhausted
  split
  · exact h.goOffline i
  all_goals exact h.laneLost i

theorem State.Quiet.waitTaken (h : State.Quiet c s t) (i : StreamId) (o : Outstanding) :
    State.Quiet c s (t.waitTaken i o) := by
  simp only [State.waitTaken]
  split
  · exact h.keepCredit rfl
  · have counted : State.Quiet c s (t.mapLane i fun l => { l with waitCount := l.waitCount + 1 }) := h.keepCredit rfl
    split
    · exact counted.exhausted i o
    · exact counted.keepCredit rfl

theorem State.Quiet.refuseTaken (h : State.Quiet c s t) (i : StreamId) (reason : BitVec 4) (o : Outstanding) :
    State.Quiet c s (t.refuseTaken i reason o) := by
  unfold State.refuseTaken
  split
  · exact h.goOffline i
  all_goals exact h.laneHalted i reason _

theorem State.Quiet.reply (h : State.Quiet c s t) {i : StreamId} {seq : Seq} {taken : Outstanding → State → State}
    (ht : ∀ o, State.Quiet c s (taken o t)) : State.Quiet c s (t.reply i seq taken) := by
  unfold State.reply
  split
  · exact h.countStale i
  · split
    · exact ht _
    · exact h.countStale i

/-- A grant takes the credit to 15 at most (R109). -/
theorem State.Quiet.takeCredit (h : State.Quiet c s t) (i : StreamId) (grant : Byte) :
    State.Quiet c s (t.takeCredit i grant) := by
  unfold State.takeCredit
  split
  · exact h.countStale i
  · exact h.mapLane (.inr (Nat.min_le_right _ _))

theorem State.Quiet.resend (h : State.Quiet c s t) (i : StreamId) : State.Quiet c s (t.resend i) :=
  (h.keepCredit (Lane.transmit_credit _ i _)).countResend i

theorem State.Quiet.replyExpired (h : State.Quiet c s t) (i : StreamId) (o : Outstanding) :
    State.Quiet c s (t.replyExpired i o) := by
  simp only [State.replyExpired]
  split
  · exact h.resend i
  · split
    · exact State.Quiet.startCancel (h.keepCredit (f := fun l => { l with seq := l.seq + 1 }) rfl) i
    · have counted : State.Quiet c s (t.mapLane i fun l => { l with resendCount := l.resendCount + 1 }) := h.keepCredit rfl
      split
      · exact counted.exhausted i o
      · exact counted.resend i

theorem State.Quiet.stopLane (h : State.Quiet c s t) (i : StreamId) : State.Quiet c s (t.stopLane i) := by
  refine h.mapLane (.inl ?_)
  split
  · exact Nat.le_refl _
  · exact Lane.settle_credit _

/-! ## Stream control -/

/-- A change of the deferred completions that keeps ring, latch and state. -/
theorem Stream.Quiet.of_abort {x y : Stream} (cfg : y.cfg = x.cfg) (ring : y.ring = x.ring) (latch : y.latch = x.latch)
    (st : y.st = x.st) (abort : x.AbortOk → y.AbortOk) : x.Quiet y where
  cfg := cfg
  ring hx := by rw [Stream.RingOk, ring]; exact hx
  moves ha hl := ⟨abort ha, by rw [Stream.LatchOk, latch, Stream.takesRecords, st, ring]; exact hl,
    .stays ring (latch ▸ id) (st ▸ id) (st ▸ id)⟩

/-- A halt of a stream that takes records empties its latch (R41). -/
theorem Stream.Quiet.halted {x : Stream} (h : x.takesRecords = true) (r : ReturnState) (info : HaltInfo) :
    x.Quiet { x with st := .halted, ret := some r, halt := some info, latch := .empty } := by
  refine .of_empty rfl rfl rfl rfl (Stream.not_aborting_of_emits (Stream.emits_of_takesRecords h)) (by simp) fun e => ?_
  simp [Stream.takesRecords, e] at h

theorem State.Quiet.setStream (h : State.Quiet c s t) {i : StreamId} {x : Stream} (hx : (t.stream i).Quiet x) :
    State.Quiet c s (t.setStream i x) :=
  h.mapStream (f := fun _ => x) hx

theorem State.Quiet.halt (h : State.Quiet c s t) (i : StreamId) (info : HaltInfo) : State.Quiet c s (t.halt i info) := by
  unfold State.halt
  split
  case h_1 hst =>
    rw [State.emptyLatch_mapStream]
    exact (h.setStream (.halted (by simp [Stream.takesRecords, hst]) _ info)).intake _
  case h_2 hst =>
    rw [State.emptyLatch_mapStream]
    exact (h.setStream (.halted (by simp [Stream.takesRecords, hst]) _ info)).intake _
  all_goals exact h

/-- A drain end finds the latch EMPTY (R38, R39). -/
theorem State.Quiet.lookForDrainEnd (h : State.Quiet c s t) (i : StreamId) : State.Quiet c s (t.lookForDrainEnd i) := by
  unfold State.lookForDrainEnd
  split
  · next hends =>
    obtain ⟨_, hst, hquiet, _⟩ := State.drainEnds_iff.1 hends
    have ready : State.Quiet c s (t.mapStream i fun st => { st with
        dstop := st.dstop.map fun d => { d with due := some (.ok, st.nextEmit) }, st := .ready, ret := none, skip := none }) :=
      h.mapStream (.of_empty rfl rfl hquiet.2.1 rfl (by simp [hst]) (by simp) fun _ => rfl)
    exact State.Quiet.offerStream (ready.mapLane (.inr (Nat.zero_le _))) i
  · exact h

end Sys2Proof.Machine
end

section
/-!
The ring unit's, the raster unit's and the hand-overs' operations are changes by the way, and so are the ends of the record and
source reads (chapters 3, 4, 7, 8).
-/

namespace Sys2Proof.Machine

variable {c : Instr} {s t : State}

/-! ## Entry writes and what waits (R147, R168, R170) -/

/-- A ring unit with the rings and the queue as they were. -/
theorem State.Quiet.ringUnit (h : State.Quiet c s t) {x : RingUnit} (admin : x.admin = t.ring.admin)
    (comp : x.comp = t.ring.comp) (queue : x.queue = t.ring.queue) : State.Quiet c s { t with ring := x } :=
  h.then <| State.Steady.quiet
    { comp := fun ht k hk => ht k (comp ▸ hk)
      credit := id
      queue := fun ht => ht.of_eq queue (fun _ => .inl) fun _ _ => .inl
      admin := .inl ⟨admin, fun _ _ _ => id⟩ } rfl rfl

theorem State.Quiet.raise (h : State.Quiet c s t) (x : Causes) : State.Quiet c s (t.raise x) := h.port _

theorem State.Quiet.countEntry (h : State.Quiet c s t) (e : Entry) : State.Quiet c s (t.countEntry e) := by
  unfold State.countEntry
  split
  · exact h
  · split
    · exact h
    · split
      · refine State.Quiet.raise ?_ _
        exact h.ringUnit rfl rfl rfl
      · exact h.ringUnit rfl rfl rfl

/-- The write position stays below the size (R139, R148). -/
theorem CompRing.Legal.written {k : CompRing} (h : k.Legal) (phase : Bool) :
    ({ k with write := (k.write + 1) % k.size, phase := phase } : CompRing).Legal :=
  ⟨h.1, Nat.mod_lt _ (ringSizeOk_pos h.1), h.2.2⟩

theorem State.Quiet.issueEntry (h : State.Quiet c s t) : State.Quiet c s t.issueEntry := by
  cases hqueue : t.ring.queue with
  | nil => rw [show t.issueEntry = t by simp [State.issueEntry, hqueue]]; exact h
  | cons e q =>
    cases hcomp : t.ring.comp with
    | none => rw [show t.issueEntry = t by simp [State.issueEntry, hqueue, hcomp]]; exact h
    | some k =>
      rw [State.issueEntry_eq hqueue hcomp]
      refine State.Quiet.countEntry ?_ e
      refine h.then (State.Steady.quiet ⟨fun ht k' hk' => ?_, id, fun ht => ?_, ?_⟩ rfl rfl)
      · obtain rfl := Option.some.inj hk'
        exact (ht k hcomp).written _
      · exact ht.of_tail hqueue rfl rfl
      · exact .inl ⟨rfl, fun _ _ _ => id⟩

/-- A snapshot that waited makes the entry of its command due, which is no lane's (R52, R146). -/
theorem State.Quiet.issueSnapshot (h : State.Quiet c s t) (addr : BitVec 64) (bytes : List Byte) :
    State.Quiet c s (t.issueSnapshot addr bytes) := by
  have written := h.port { t.port with sent := t.port.sent ++ [.write addr bytes] }
  cases hadmin : t.admin with
  | awaiting e i =>
    simp only [State.issueSnapshot, hadmin]
    split
    · refine State.Quiet.admitAsMade (written.adminUnit (fun _ _ _ he => AdminUnit.noConfusion he) fun e' i' he => .inl ?_) _
      rcases he with he | he <;> cases he
      exact .inr hadmin
    · rw [← hadmin]; exact written
  | _ => simpa only [State.issueSnapshot, hadmin] using written

theorem State.Quiet.issueAsk (h : State.Quiet c s t) (a : LinkAsk) : State.Quiet c s (t.issueAsk a) := by
  cases a with
  | read who addr len =>
    exact State.Quiet.raster (h.port _) fun e he => .inl ((RasterUnit.issued_offer who t.raster).1 ▸ he)
  | entry =>
    simp only [State.issueAsk]
    split
    · exact h.issueEntry
    · exact h
  | snapshot addr bytes => exact h.issueSnapshot addr bytes
  | message =>
    simp only [State.issueAsk]
    split
    · exact h.port _
    · exact h

theorem State.Quiet.issueAsks (l : List LinkAsk) (h : State.Quiet c s t) : State.Quiet c s (l.foldl State.issueAsk t) := by
  induction l generalizing t with
  | nil => exact h
  | cons a l ih => exact ih (h.issueAsk a)

theorem State.Quiet.drainWaiting (h : State.Quiet c s t) : State.Quiet c s t.drainWaiting :=
  .issueAsks _ (.port (.issueAsks _ (h.port _)) _)

/-! ## The raster unit (R75, R88 to R91) -/

/-- An entry for a stream record is no lane's (R146). -/
theorem recordEntry_source (i : StreamId) (kind : Byte) (tag : BitVec 32) (index head : Nat) (st : Status) (empty : Bool)
    (extra : BitVec 32) : (recordEntry i kind tag index head st empty extra).source.toNat < 8 := by
  simp only [recordEntry, BitVec.toNat_ofNat]
  omega

/-- The raster unit has no offer, or that of a stream record. -/
theorem State.Quiet.rasterFree (h : State.Quiet c s t) : State.Quiet c s { t with raster := .free } :=
  h.raster fun _ he => by cases he

theorem State.Quiet.rasterExecutes (h : State.Quiet c s t) (op : Op) : State.Quiet c s { t with raster := .executing op } :=
  h.raster fun _ he => by cases he

theorem State.Quiet.rasterPosts (h : State.Quiet c s t) (op : Op) (st : Status) (empty : Bool) :
    State.Quiet c s (({ t with raster := .posting op (op.entry st empty) } : State).admitAsMade .raster) := by
  refine State.Quiet.admitAsMade (h.raster fun e he => .inr ?_) _
  obtain rfl := Option.some.inj he
  exact recordEntry_source _ _ _ _ _ _ _ _

theorem State.Quiet.opEnds (h : State.Quiet c s t) (op : Op) : State.Quiet c s (t.opEnds op) := by
  unfold State.opEnds
  split
  · exact h.rasterFree
  · split
    · exact h.rasterPosts op _ _
    · exact h.rasterFree

theorem State.Quiet.opFaults (h : State.Quiet c s t) (op : Op) : State.Quiet c s (t.opFaults op) := by
  simp only [State.opFaults]
  split
  · exact h.rasterFree
  · have marked : State.Quiet c s (t.mapSlot op.slot fun b => { b with damaged := true }) :=
      h.mapSlot _ fun _ => ⟨rfl, Nat.le_refl _, id⟩
    exact (marked.halt _ _).rasterPosts op _ _

theorem State.Quiet.opGoesOn (h : State.Quiet c s t) (op : Op) : State.Quiet c s (t.opGoesOn op) := by
  unfold State.opGoesOn
  split
  · exact h.opEnds op
  · split
    · exact State.Quiet.port (h.rasterExecutes _) _
    all_goals exact h.rasterExecutes op

theorem State.Quiet.writeRow (h : State.Quiet c s t) (op : Op) : State.Quiet c s (t.writeRow op) :=
  State.Quiet.opGoesOn (h.rowWritten op) _

theorem State.Quiet.sourceFinishes (h : State.Quiet c s t) (off : Nat) (res : Option (List Byte)) (op : Op) :
    State.Quiet c s (t.sourceFinishes off res op) := by
  simp only [State.sourceFinishes]
  split
  · split
    · exact h.opFaults _
    · exact h.rasterExecutes _
  · split <;> split
    · exact h.opFaults _
    · exact h.rasterExecutes _
    · exact h.writeRow _
    · exact h.rasterExecutes _

theorem State.Quiet.sourceReadEnds (h : State.Quiet c s t) (off : Nat) (res : Option (List Byte)) :
    State.Quiet c s (t.sourceReadEnds off res) := by
  unfold State.sourceReadEnds
  split
  · split
    · exact h.sourceFinishes _ _ _
    · exact h
  all_goals exact h

/-! ## The end of the fetch arbiter's read (R57, R60) -/

theorem Latch.index_eq_none {l : Latch} : l.index = none ↔ l = .empty := by cases l <;> simp [Latch.index]

/-- A latch that takes its record or a fault keeps its index (R58). -/
theorem Stream.Quiet.of_index {x y : Stream} (cfg : y.cfg = x.cfg) (ring : y.ring = x.ring) (st : y.st = x.st)
    (dabort : y.dabort = x.dabort) (abortAt : y.abortAt = x.abortAt) (index : y.latch.index = x.latch.index) : x.Quiet y where
  cfg := cfg
  ring hx := by rw [Stream.RingOk, ring]; exact hx
  moves ha hl := by
    have empty : y.latch = .empty ↔ x.latch = .empty := by rw [← Latch.index_eq_none, index, Latch.index_eq_none]
    refine ⟨by rw [Stream.AbortOk, dabort, st, abortAt]; exact ha, fun hy => ?_,
      .stays ring (fun hy => mt empty.2 hy) (st ▸ id) (st ▸ id)⟩
    rw [index, ring, Stream.takesRecords, st]
    exact hl (mt empty.2 hy)

theorem State.Quiet.recordReadEnds (h : State.Quiet c s t) (res : Option (List Byte)) :
    State.Quiet c s (t.recordReadEnds res) := by
  unfold State.recordReadEnds
  split
  · exact h
  · simp only
    split
    · exact h.intake _
    · refine State.Quiet.mapStream (h.intake _) ?_
      split
      · next hlatch => split <;> exact .of_index rfl rfl rfl rfl rfl (by rw [hlatch]; rfl)
      all_goals exact .refl _

/-! ## Hand-overs (R63 to R73) -/

/-- A chosen record stands in the latch of a configured stream that takes records (R58, R63). -/
theorem State.handFor_some {row : Verdict → List Byte → Bool} {h : Hand} (hh : s.handFor row = some h) :
    s.handOverChoice = some h.stream ∧ (s.stream h.stream).latch = .held h.index h.bytes h.verdict ∧
      (s.stream h.stream).cfg = some h.cfg ∧ row h.verdict h.bytes = true := by
  unfold State.handFor at hh
  split at hh
  · cases hh
  · next i hi =>
    split at hh
    · next hlatch hcfg _ =>
      split at hh
      · next hrow => cases hh; exact ⟨hi, hlatch, hcfg, hrow⟩
      · cases hh
    · cases hh

/-- A stream with a record to consume: it takes records, and its latch is not EMPTY. -/
def Stream.HasRecord (x : Stream) : Prop := x.takesRecords = true ∧ x.latch ≠ .empty

theorem State.handFor_hasRecord {row : Verdict → List Byte → Bool} {h : Hand} (hh : s.handFor row = some h) :
    (s.stream h.stream).HasRecord := by
  obtain ⟨choice, latch, _⟩ := State.handFor_some hh
  exact ⟨State.handOverChoice_takesRecords choice, by simp [latch]⟩

theorem State.Quiet.consumeRecord (h : State.Quiet c s t) {i : StreamId} (hi : (t.stream i).HasRecord) :
    State.Quiet c s (t.consumeRecord i) :=
  State.Quiet.intake (h.mapStream (f := fun st => { st with latch := .empty, ring := st.ring.map Ring.advance })
    (.of_consumed rfl rfl hi.2 rfl rfl rfl hi.1)) _

theorem State.Quiet.holdEntry (h : State.Quiet c s t) (i : StreamId) {e : Entry} (he : e.source.toNat < 8) :
    State.Quiet c s (t.holdEntry i e) := by
  refine State.Quiet.admitAsMade (h.raster fun e' he' => .inr ?_) _
  obtain rfl := Option.some.inj he'
  exact he

theorem State.Quiet.finishRecord (h : State.Quiet c s t) {hand : Hand} (hi : (t.stream hand.stream).HasRecord) (owed : Bool)
    (st : Status) (extra : BitVec 32) : State.Quiet c s (t.finishRecord hand owed st extra) := by
  simp only [State.finishRecord]
  split
  · exact (h.consumeRecord hi).holdEntry _ (recordEntry_source _ _ _ _ _ _ _ _)
  · exact h.consumeRecord hi

theorem State.Quiet.failRecord (h : State.Quiet c s t) {hand : Hand} (hi : (t.stream hand.stream).HasRecord) (st : Status)
    (band : Option Band) : State.Quiet c s (t.failRecord hand st band) :=
  ((h.consumeRecord hi).halt _ _).holdEntry _ (recordEntry_source _ _ _ _ _ _ _ _)

theorem State.Quiet.ringFault (h : State.Quiet c s t) (i : StreamId) (n : Nat) : State.Quiet c s (t.ringFault i n) :=
  State.Quiet.holdEntry (State.Quiet.halt (h.intake _) _ _) _ (recordEntry_source _ _ _ _ _ _ _ _)

theorem State.Quiet.skipRecord (h : State.Quiet c s t) {hand : Hand} (hi : (t.stream hand.stream).HasRecord) (k : RecKind) :
    State.Quiet c s (t.skipRecord hand k) := by
  refine State.Quiet.finishRecord (h.mapStream (.of_eq rfl rfl rfl rfl rfl rfl)) ?_ _ _ _
  rw [State.stream_mapStream_same]
  exact hi

theorem State.Quiet.beginOp (h : State.Quiet c s t) {hand : Hand} (hi : (t.stream hand.stream).HasRecord) (kind : OpKind)
    (slot : SlotId) (area : Area) : State.Quiet c s (t.beginOp hand kind slot area) :=
  (h.consumeRecord hi).opGoesOn _

theorem State.Quiet.onOpen (h : State.Quiet c s t) {hand : Hand} (hi : (t.stream hand.stream).HasRecord)
    {effect : SlotId → State → State} (he : ∀ k, State.Quiet c s (effect k t)) : State.Quiet c s (t.onOpen hand effect) := by
  unfold State.onOpen
  split
  · exact h.failRecord hi _ _
  · exact he _

/-- A hand-over is a change by the way where its kind's effect is one, for a good record that the arbiter chose (R63, R65). -/
theorem State.handOver_quiet {k : RecKind} {effect : Hand → State → State}
    (he : ∀ h : Hand, (s.stream h.stream).HasRecord →
      s.handFor (fun v bs => v != .badKind && RecKind.ofCode (recCode bs) == some k) = some h → h.verdict ≠ .badField →
      State.Quiet c s (effect h s)) : State.Quiet c s (s.handOver k effect) := by
  unfold State.handOver
  split
  · exact .refl c s
  · next hand hh =>
    have hi := State.handFor_hasRecord hh
    split
    · exact (State.Quiet.refl c s).failRecord hi _ _
    · next hfield =>
      split
      · exact (State.Quiet.refl c s).skipRecord hi _
      · exact he hand hi hh hfield

/-- The arbiter chooses a good OPEN_BAND only if the band's pages fit the stream's quota (R64). -/
theorem State.handFor_bandFits {h : Hand}
    (hh : s.handFor (fun v bs => v != .badKind && RecKind.ofCode (recCode bs) == some .openBand) = some h)
    (hv : h.verdict ≠ .badField) : s.pagesHeld h.stream + h.cfg.pages ≤ h.cfg.quota := by
  obtain ⟨choice, latch, cfg, row⟩ := State.handFor_some hh
  simp only [Bool.and_eq_true, bne_iff_ne, beq_iff_eq] at row
  have good : h.verdict = .good := by
    cases hd : h.verdict with
    | good => rfl
    | badKind => exact absurd hd row.1
    | badField => exact absurd hd hv
  have eligible : s.eligible h.stream = true := by
    unfold State.handOverChoice at choice
    split at choice
    · have := List.find?_some choice
      simp only [Bool.and_eq_true] at this
      exact this.2
    · cases choice
  simp only [State.eligible, latch, good, State.goodEligible, row.2, State.bandFits, cfg, Option.any_some, Bool.and_eq_true,
    decide_eq_true_eq] at eligible
  exact eligible.1

/-- A band opened within quota and window leaves its stream within both (R22, R34, R64, R69). -/
theorem State.Quiet.openNew {i : StreamId} {k : SlotId} {x : StreamCfg} (band : Band) (cfg : (s.stream i).cfg = some x)
    (quota : s.pagesHeld i + x.pages ≤ x.quota) (window : s.openCount i < x.window) (hk : s.slot k = none) :
    State.Quiet c s (s.openNew i k band x.pages) where
  toSteady := .of_units rfl rfl rfl rfl
  held j := by
    obtain ⟨pages, opened⟩ := State.openNew_holds i j band x.pages hk
    by_cases hj : i = j
    · subst hj
      refine .inr fun y hy => ?_
      rw [State.openNew_stream_same] at hy
      obtain rfl := Option.some.inj (cfg.symm.trans hy)
      rw [if_pos rfl] at pages opened
      exact ⟨pages.trans quota, opened ▸ window⟩
    · rw [if_neg hj] at pages opened
      exact .inl ⟨pages, Nat.le_of_eq opened⟩
  streams j := by
    rw [State.openNew_stream]
    split
    · next hj => rw [hj]; exact .of_eq rfl rfl rfl rfl rfl rfl
    · exact .refl _

end Sys2Proof.Machine
end

section
/-!
The admin rows: the consumption of a taken command (R29, R141), the changes by the way, and what a whole step does as the laws of
the units and of the streams see it.
-/

namespace Sys2Proof.Machine

variable {c : Instr} {s t u : State} {a : AdminCmd}

/-! ## The taken command -/

/-- The row `c` carries out the taken command `a`. -/
def State.Carries (c : Instr) (a : AdminCmd) (s : State) : Prop := ∃ bs n met r, s.admin = .fetched bs n met ∧
  s.ring.admin = some r ∧ rowTakes bs = c ∧ a.past = r.passed met

theorem State.commandFor_carries {row : List Byte → Bool} (h : s.commandFor row = some a)
    (hrow : ∀ bs, row bs = true → rowTakes bs = c) : s.Carries c a := by
  unfold State.commandFor at h
  split at h
  · next bs n met r hadmin hring =>
    split at h
    · next hc => cases h; exact ⟨bs, n, met, r, hadmin, hring, hrow bs hc.2, rfl⟩
    · cases h
  · cases h

/-- The records of a command without actions go to its row (R30). -/
theorem rowTakes_of_command {k : Command} (hc : ∀ n, k.row n = c) (bs : List Byte) (h : (recCommand bs == some k) = true) :
    rowTakes bs = c := by
  rw [rowTakes_eq, eq_of_beq h]
  exact hc _

/-- Those of a command with actions go to the row of the action (9.3). -/
theorem rowTakes_of_action {k : Command} {p : Nat → Bool} (hc : ∀ n, p n = true → k.row n = c) (bs : List Byte)
    (h : (recCommand bs == some k && p (recAction bs)) = true) : rowTakes bs = c := by
  rw [Bool.and_eq_true] at h
  rw [rowTakes_eq, eq_of_beq h.1]
  exact hc _ h.2

/-- What the refusals of a command have, and its effect in a state and with fields that it takes, the command has (R30). -/
theorem State.runCommand_keeps_checked {P : State → Prop} {k : Command} {taken : Stream → Lane → Bool} {fieldsOk : Bool}
    {effect : StreamId → State → State} (refused : ∀ st extra, P (s.complete a st extra))
    (h : ∀ i, taken (s.stream i) (s.lane i) = true → fieldsOk = true → P (effect i s)) :
    P (s.runCommand a k taken fieldsOk effect) := by
  simp only [State.runCommand]
  split
  · split
    · exact refused _ _
    · next ht =>
      split
      · exact refused _ _
      · next hf =>
        simp only [Bool.not_eq_false, Bool.and_eq_true] at ht hf
        exact h _ ht hf.2
  · exact refused _ _

/-! ## Its consumption -/

/-- The command leaves the admin unit, which may keep its completion, and the ring is past it (R29, R31, R141). -/
theorem State.Steady.leave (h : State.Steady c s t) (hc : s.Carries c a) {x : AdminUnit}
    (hx : ∀ bs n met, x ≠ .fetched bs n met) (he : ∀ e i, x = .posting e i ∨ x = .awaiting e i → e.source.toNat < 8) :
    State.Steady c s { t.leaveCommand a with admin := x } where
  comp := h.comp
  credit := h.credit
  queue hs := (h.queue hs).of_eq rfl (fun _ => .inl) fun e i h' => .inr (he e i h')
  admin := by
    obtain ⟨bs, n, met, r, hadmin, hring, hrow, hpast⟩ := hc
    exact .inr ⟨bs, n, met, r, hadmin, hring, hrow, congrArg some hpast, hx⟩

theorem State.Steady.leaveCommand (h : State.Steady c s t) (hc : s.Carries c a) : State.Steady c s (t.leaveCommand a) :=
  h.leave hc (x := .idle) (fun _ _ _ he => by cases he) fun _ _ he => by rcases he with he | he <;> cases he

/-- An entry of the admin unit is no lane's (R146). -/
theorem AdminCmd.entry_source (a : AdminCmd) (st : Status) (extra : BitVec 32) : (a.entry st extra).source.toNat < 8 :=
  show (0#8 : Byte).toNat < 8 by decide

/-- The completion of a command, due or waiting for its snapshot, is no lane's (R31, R52). -/
theorem State.Steady.posts (h : State.Steady c s t) (hc : s.Carries c a) {st : Status} {extra : BitVec 32}
    {j : Option StreamId} {x : AdminUnit} (hx : x = .posting (a.entry st extra) j ∨ x = .awaiting (a.entry st extra) j) :
    State.Steady c s { t.leaveCommand a with admin := x } := by
  refine h.leave hc (fun _ _ _ he => ?_) fun e i he => ?_
  · rcases hx with rfl | rfl <;> cases he
  · have own : e = a.entry st extra := by rcases hx with rfl | rfl <;> rcases he with he | he <;> cases he <;> rfl
    rw [own]
    exact a.entry_source st extra

theorem State.Steady.complete (h : State.Steady c s t) (hc : s.Carries c a) (st : Status) (extra : BitVec 32) :
    State.Steady c s (t.complete a st extra) :=
  (h.posts hc (.inl rfl)).then ((State.Quiet.refl c _).admitAsMade _).toSteady

/-- The consumption leaves streams and bands. -/
theorem State.Quiet.of_steady (h : State.Quiet c s t) (hu : State.Steady c s u) (streams : u.streams = t.streams)
    (bands : u.bands = t.bands) : State.Quiet c s u where
  toSteady := hu
  held i := by
    have less := State.holdsLess_of_bands bands i
    rcases h.held i with before | before
    · exact .inl ⟨less.1.trans before.1, less.2.trans before.2⟩
    · refine .inr fun k hk => ?_
      rw [State.stream_congr streams] at hk
      exact ⟨less.1.trans (before k hk).1, less.2.trans (before k hk).2⟩
  streams i := by rw [State.stream_congr streams]; exact h.streams i

theorem State.Quiet.leaveCommand (h : State.Quiet c s t) (hc : s.Carries c a) : State.Quiet c s (t.leaveCommand a) :=
  h.of_steady (h.toSteady.leaveCommand hc) rfl rfl

theorem State.Quiet.complete (h : State.Quiet c s t) (hc : s.Carries c a) (st : Status) (extra : BitVec 32) :
    State.Quiet c s (t.complete a st extra) :=
  h.of_steady (h.toSteady.complete hc st extra) (State.complete_frame a st extra t).2.1
    (State.complete_frame a st extra t).2.2.2.2.1

/-- The completion that waits for its snapshot (R52, R170). -/
theorem State.Quiet.awaits (h : State.Quiet c s t) (hc : s.Carries c a) (st : Status) (extra : BitVec 32)
    (j : Option StreamId) (p : Port) :
    State.Quiet c s { t.leaveCommand a with admin := .awaiting (a.entry st extra) j, port := p } :=
  State.Quiet.port (h.of_steady (h.toSteady.posts hc (.inr rfl)) rfl rfl) p

/-! ## What a step does to the units -/

/-- What the row `c` does to the admin ring and unit, the completion ring, the queue and the lanes' credit (R109, R139, R141,
R143, R151). -/
structure State.UnitsChange (c : Instr) (s t : State) : Prop where
  adminRing : (∀ r, s.ring.admin = some r → r.Legal) → ∀ r, t.ring.admin = some r → r.Legal
  comp : (∀ k, s.ring.comp = some k → k.Legal) → ∀ k, t.ring.comp = some k → k.Legal
  credit : s.CreditLaw → t.CreditLaw
  queue : s.QueueLaw → t.QueueLaw
  command : s.CommandLaw → t.CommandLaw
  head : s.CommandLaw → s.port.part = .attached → ∀ r r', s.ring.admin = some r → t.ring.admin = some r' →
    r'.head = r.head ∨ (r.head ≠ r.tail ∧ ∃ bs met, s.admin = .fetched bs r.head met ∧ rowTakes bs = c ∧
      r' = { r with head := (r.head + 1) % r.size, tail := if met then r.head else r.tail })

theorem Ring.Legal.passed {r : Ring} (h : r.Legal) (met : Bool) : (r.passed met).Legal := by
  refine ⟨h.1, Nat.mod_lt _ (Nat.zero_lt_of_lt h.2.1), ?_⟩
  cases met
  · exact h.2.2
  · exact h.2.1

/-- The head moves past a taken command alone, which is the record there (R141). -/
theorem State.Steady.units (h : State.Steady c s t) : State.UnitsChange c s t where
  adminRing hs r hr := by
    rcases h.admin with ⟨ring, _⟩ | ⟨_, _, met, q, _, hq, _, past, _⟩
    · exact hs r (ring ▸ hr)
    · obtain rfl := Option.some.inj (past.symm.trans hr)
      exact (hs q hq).passed met
  comp := h.comp
  credit := h.credit
  queue := h.queue
  command hs bs n met e := by
    rcases h.admin with ⟨ring, same⟩ | ⟨_, _, _, _, _, _, _, _, idle⟩
    · rw [ring]; exact hs bs n met (same bs n met e)
    · exact absurd e (idle bs n met)
  head hs _ r r' hr hr' := by
    rcases h.admin with ⟨ring, _⟩ | ⟨bs, n, met, q, hadmin, hq, hrow, past, _⟩
    · rw [ring, hr, Option.some.injEq] at hr'
      exact .inl (by rw [hr'])
    · obtain ⟨q', hq', hn, hne⟩ := hs bs n met hadmin
      obtain rfl := Option.some.inj (hr.symm.trans hq')
      obtain rfl := Option.some.inj (hr.symm.trans hq)
      obtain rfl := Option.some.inj (past.symm.trans hr')
      exact .inr ⟨hne, bs, met, hn ▸ hadmin, hrow, rfl⟩

/-! ## What a step does to the streams -/

/-- What the row `c` does to the streams' rings, latches, quotas and holdings (R22, R34, R58, R71, R139). -/
structure State.StreamsChange (c : Instr) (s t : State) : Prop where
  quota : s.QuotaLaw → t.QuotaLaw
  hold : s.BandLaws → s.HoldLaw → t.HoldLaw
  turn : ∀ i, (s.stream i).Turn c (t.stream i)

/-- Quotas that do not grow keep R34's sum. -/
theorem State.QuotaLaw.of_cfg (h : s.QuotaLaw) (cfg : ∀ i, (t.stream i).cfg = (s.stream i).cfg ∨ (t.stream i).cfg = none) :
    t.QuotaLaw := by
  refine Nat.le_trans (List.sum_le_sum fun i _ => ?_) h
  rcases cfg i with e | e
  · rw [e]
  · rw [e]; exact Nat.zero_le _

theorem State.Quiet.streamsChange (h : State.Quiet c s t) : State.StreamsChange c s t where
  quota hs := hs.of_cfg fun i => .inl (h.streams i).cfg
  hold _ hs i k hk := by
    rcases h.held i with less | within
    · obtain ⟨pages, opened⟩ := hs i k ((h.streams i).cfg ▸ hk)
      exact ⟨less.1.trans pages, less.2.trans opened⟩
    · exact within k hk
  turn i := (h.streams i).turn c

/-- A step of the streams alone, whose configurations stay or go. -/
theorem State.StreamsChange.of_turn (bands : t.bands = s.bands)
    (cfg : ∀ i, (t.stream i).cfg = (s.stream i).cfg ∨ (t.stream i).cfg = none)
    (turn : ∀ i, (s.stream i).Turn c (t.stream i)) : State.StreamsChange c s t where
  quota hs := hs.of_cfg cfg
  hold _ hs i k hk := by
    have less := State.holdsLess_of_bands bands i
    rcases cfg i with e | e
    · obtain ⟨pages, opened⟩ := hs i k (e ▸ hk)
      exact ⟨less.1.trans pages, less.2.trans opened⟩
    · rw [e] at hk; cases hk
  turn := turn

/-- A step of one stream alone, whose configuration stays or goes. -/
theorem State.StreamsChange.of_stream {i : StreamId} {x : Stream} (bands : t.bands = s.bands)
    (streams : t.streams = (s.setStream i x).streams) (cfg : x.cfg = (s.stream i).cfg ∨ x.cfg = none)
    (turn : (s.stream i).Turn c x) : State.StreamsChange c s t := by
  have stream (j : StreamId) : t.stream j = if j = i then x else s.stream j := by
    rw [State.stream_congr streams, State.stream_setStream]
  refine .of_turn bands (fun j => ?_) fun j => ?_
  · rw [stream]
    split
    · next hj => rw [hj]; exact cfg
    · exact .inl rfl
  · rw [stream]
    split
    · next hj => rw [hj]; exact turn
    · exact (Stream.Quiet.refl _).turn c

theorem State.StreamsChange.of_frame (streams : t.streams = s.streams) (bands : t.bands = s.bands) :
    State.StreamsChange c s t :=
  .of_turn bands (fun i => .inl (by rw [State.stream_congr streams])) fun i => by
    rw [State.stream_congr streams]; exact (Stream.Quiet.refl _).turn c

/-! ## Both -/

/-- What the row `c` does, as O4's and O6's laws see it. -/
structure State.Change (c : Instr) (s t : State) : Prop extends State.UnitsChange c s t, State.StreamsChange c s t

theorem State.Change.of_steady (h : State.Steady c s t) (h' : State.StreamsChange c s t) : State.Change c s t := ⟨h.units, h'⟩

theorem State.Quiet.change (h : State.Quiet c s t) : State.Change c s t :=
  .of_steady h.toSteady h.streamsChange

theorem State.Change.refl (c : Instr) (s : State) : State.Change c s s := (State.Quiet.refl c s).change

/-- The part with every stream UNCONFIGURED, no command and no entry, and rings as they are set up (R162, R165, R166). -/
theorem State.Change.of_initial (streams : t.streams = Vector.replicate 4 Stream.initial)
    (credit : ∀ i, (t.lane i).credit = 0) (queue : t.ring.queue = []) (admin : t.admin = .idle) (raster : t.raster = .free)
    (adminRing : t.ring.admin = none ∨ s.port.part ≠ .attached ∧ ∀ r, t.ring.admin = some r → r.Legal)
    (comp : ∀ k, t.ring.comp = some k → k.Legal) : State.Change c s t := by
  have stream (i : StreamId) : t.stream i = Stream.initial := by rw [State.stream, streams, get_replicate]
  refine ⟨⟨fun _ r hr => ?_, fun _ => comp, fun _ i => ?_, fun _ => ⟨?_, ?_, ?_, ?_⟩, ?_, fun _ hpart r r' _ hr' => ?_⟩,
    ⟨fun _ => ?_, fun _ _ i k hk => ?_, fun i => ?_⟩⟩
  · rcases adminRing with none | ⟨_, legal⟩
    · rw [none] at hr; cases hr
    · exact legal r hr
  · rw [credit]; exact Nat.zero_le _
  · rw [queue]; exact Nat.zero_le _
  · intro i; rw [queue]; exact Nat.zero_le _
  · intro e he; rw [raster] at he; cases he
  · intro e i he; rw [admin] at he; rcases he with he | he <;> cases he
  · intro _ bs n met he; rw [admin] at he; cases he
  · rcases adminRing with none | ⟨hne, _⟩
    · rw [none] at hr'; cases hr'
    · exact absurd hpart hne
  · rw [State.QuotaLaw, State.quotaSum]
    simp only [stream]
    decide
  · rw [stream] at hk; cases hk
  · rw [stream]; exact .of_none rfl rfl

end Sys2Proof.Machine
end

section
/-!
What the window's writes, the resets and the host reads do (chapters 7 and 8).
-/

namespace Sys2Proof.Machine

variable {c : Instr} {s t : State}

/-! ## The admin ring's tail, and the command that is taken (R141, R143) -/

/-- A new admin ring or admin unit beside everything else. -/
theorem State.Change.of_admin {x : AdminUnit} {q : Option Ring}
    (legal : (∀ r, s.ring.admin = some r → r.Legal) → ∀ r, q = some r → r.Legal)
    (head : ∀ r r', s.ring.admin = some r → q = some r' → r'.head = r.head)
    (held : ∀ e i, x = .posting e i ∨ x = .awaiting e i → s.admin = .posting e i ∨ s.admin = .awaiting e i)
    (command : s.CommandLaw → ∀ bs n met, x = .fetched bs n met → ∃ r, q = some r ∧ n = r.head ∧ r.head ≠ r.tail) :
    State.Change c s { s with admin := x, ring := { s.ring with admin := q } } where
  toUnitsChange :=
    { adminRing := legal
      comp := id
      credit := id
      queue := fun hs => hs.of_eq rfl (fun _ => .inl) fun e i he => .inl (held e i he)
      command := command
      head := fun _ _ r r' hr hr' => .inl (head r r' hr hr') }
  toStreamsChange := .of_frame rfl rfl

/-- A fetch that returns takes the record at the head, which the ring counts, or nothing (R143). -/
theorem State.takeCommand_change (bs : List Byte) (s : State) : State.Change c s (s.takeCommand bs) := by
  have same (r r' : Ring) (hr : s.ring.admin = some r) (hr' : s.ring.admin = some r') : r'.head = r.head := by
    rw [Option.some.inj (hr.symm.trans hr')]
  rcases State.takeCommand_cases bs s with e | ⟨r, hr, hne, e⟩
  · rw [e]
    exact .of_admin id same (fun _ _ he => by rcases he with he | he <;> cases he) fun _ _ _ _ he => by cases he
  · rw [e]
    refine .of_admin id same (fun _ _ he => by rcases he with he | he <;> cases he) fun _ _ _ _ he => ?_
    cases he
    exact ⟨r, hr, rfl, hne⟩

/-- A written tail moves no head, and a tail equal to the index of a taken command waits (R143, log 3). -/
theorem State.setAdminTail_change {r : Ring} {index : Nat} (hr : s.ring.admin = some r) (hlt : index < r.size) :
    State.Change c s (s.setAdminTail r index) := by
  have legal (hs : ∀ r, s.ring.admin = some r → r.Legal) (q : Ring) (hq : some { r with tail := index } = some q) :
      q.Legal := Option.some.inj hq ▸ (hs r hr).setTail hlt
  have head (q q' : Ring) (hq : s.ring.admin = some q) (hq' : some { r with tail := index } = some q') : q'.head = q.head := by
    obtain rfl := Option.some.inj (hr.symm.trans hq)
    rw [← Option.some.inj hq']
  have taken {bs : List Byte} {n : Nat} {met met' : Bool} (hadmin : s.admin = .fetched bs n met) (hs : s.CommandLaw)
      (bs' : List Byte) (n' : Nat) (met'' : Bool) (he : AdminUnit.fetched bs n met' = .fetched bs' n' met'') :
      n' = r.head ∧ r.head ≠ r.tail := by
    obtain ⟨q, hq, hn, hne⟩ := hs bs n met hadmin
    obtain rfl := Option.some.inj (hr.symm.trans hq)
    cases he
    exact ⟨hn, hne⟩
  rcases State.setAdminTail_cases r index s with ⟨bs, n, met, hadmin, ⟨_, e⟩ | ⟨hne, e⟩⟩ | ⟨hidle, e⟩
  · rw [e]
    refine .of_admin id (fun q q' hq hq' => by rw [Option.some.inj (hq.symm.trans hq')])
      (fun _ _ he => by rcases he with he | he <;> cases he) fun hs bs' n' met' he => ?_
    exact ⟨r, hr, taken hadmin hs bs' n' met' he⟩
  · rw [e]
    refine .of_admin legal head (fun _ _ he => by rcases he with he | he <;> cases he) fun hs bs' n' met' he => ?_
    exact ⟨_, rfl, (taken hadmin hs bs' n' met' he).1, hne.symm⟩
  · rw [e]
    exact .of_admin legal head (fun _ _ => id) fun _ bs n met he => absurd he (hidle bs n met)

/-! ## The other notify writes (R144, R145) -/

/-- A tail equal to the head empties the latch, and any other leaves a record at the head (R58, R62). -/
theorem State.setStreamTail_change {i : StreamId} {r : Ring} {index : Nat} (hr : (s.stream i).ring = some r)
    (hlt : index < r.size) : State.Change c s (s.setStreamTail i r index) := by
  have ring (hs : (s.stream i).RingOk) (q : Ring) (hq : some { r with tail := index } = some q) : q.Legal :=
    Option.some.inj hq ▸ (hs r hr).setTail hlt
  have head (q q' : Ring) (hq : (s.stream i).ring = some q) (hq' : some { r with tail := index } = some q') :
      q'.head = q.head := by
    obtain rfl := Option.some.inj (hr.symm.trans hq)
    rw [← Option.some.inj hq']
  rw [State.setStreamTail_eq]
  split
  · refine .of_steady (.of_units rfl rfl rfl rfl) (.of_stream rfl rfl (.inl rfl) ?_)
    exact .of_head ring (fun _ => Stream.latchOk_of_empty rfl) head
  · next hne =>
    refine .of_steady (.of_units rfl rfl rfl rfl) (.of_stream rfl rfl (.inl rfl) (.of_head ring (fun hl hlatch => ?_) head))
    obtain ⟨takes, q, hq, hindex, _⟩ := hl hlatch
    obtain rfl := Option.some.inj (hr.symm.trans hq)
    exact ⟨takes, _, rfl, hindex, fun e => hne ⟨e.symm, hlatch⟩⟩

/-- A release below the size keeps the completion ring legal (R139, R145). -/
theorem State.Quiet.release {k : CompRing} {index : Nat} (hk : s.ring.comp = some k) (hlt : index < k.size) :
    State.Quiet c s { s with ring := { s.ring with comp := some { k with release := index } } } :=
  State.Steady.quiet
    { comp := fun hs q hq => by
        obtain ⟨size, write, _⟩ := hs k hk
        exact Option.some.inj hq ▸ ⟨size, write, hlt⟩
      credit := id
      queue := fun hs => hs.of_eq rfl (fun _ => .inl) fun _ _ => .inl
      admin := .inl ⟨rfl, fun _ _ _ => id⟩ } rfl rfl

theorem State.notify_change (queue : BitVec 8) (index : BitVec 16) (s : State) : State.Change c s (s.notify queue index) := by
  have reject : State.Change c s s.rejectNotify := ((State.Quiet.refl c s).raise _).change
  simp only [State.notify]
  split
  · exact reject
  split
  · split
    · next hr =>
      split
      · next hlt => exact State.setAdminTail_change hr hlt
      · exact reject
    · exact reject
  split
  · split
    · exact reject
    · split
      · next hr =>
        split
        · next hlt => exact State.setStreamTail_change hr hlt
        · exact reject
      · exact reject
  split
  · split
    · next hk =>
      split
      · next hv => exact (State.Quiet.release hk hv.1).change
      · exact reject
    · exact reject
  · exact reject

/-! ## Resets, attach and detach (R162 to R166) -/

theorem State.functionReset_change (s : State) (p : Port) : State.Change c s { s.functionReset with port := p } := by
  refine .of_initial rfl (fun i => ?_) rfl rfl rfl (.inl rfl) fun _ hk => by cases hk
  simp [State.functionReset, State.lane, Lane.initial]

theorem State.initialBlocks_credit (s : State) (i : StreamId) : (s.initialBlocks.lane i).credit = 0 := by
  simp [State.initialBlocks, State.lane, Lane.detached, Lane.initial]

/-- The rings of a valid context block are legal, with every position 0 (R139, R162). -/
theorem contextRings_legal {bs : List Byte} (h : contextCode bs = .none) :
    (∀ r, (contextRings bs).admin = some r → r.Legal) ∧ ∀ k, (contextRings bs).comp = some k → k.Legal := by
  obtain ⟨admin, comp⟩ : ringSizeOk (le16 bs 16).toNat = true ∧ ringSizeOk (le16 bs 18).toNat = true := by
    unfold contextCode at h
    split at h
    · cases h
    · split at h
      · cases h
      · next hadmin =>
        split at h
        · cases h
        · next hcomp =>
          simp only [Bool.not_eq_true', Bool.not_eq_false, Bool.and_eq_true] at hadmin hcomp
          exact ⟨hadmin.2, hcomp.2⟩
  refine ⟨fun r hr => ?_, fun k hk => ?_⟩
  · exact Option.some.inj hr ▸ Ring.legal_zero _ admin
  · exact Option.some.inj hk ▸ ⟨comp, ringSizeOk_pos comp, ringSizeOk_pos comp⟩

theorem State.attachEnds_change {res : Option (List Byte)} (hpart : s.port.part ≠ .attached) :
    State.Change c s (s.attachEnds res) := by
  have fails (code : AttachCode) : State.Change c s (s.attachFails code) := ((State.Quiet.refl c s).port _).change
  unfold State.attachEnds
  split
  · exact fails _
  · split
    · exact fails _
    · split
      · next hcode =>
        obtain ⟨admin, comp⟩ := contextRings_legal hcode
        exact .of_initial rfl s.initialBlocks_credit rfl rfl rfl (.inr ⟨hpart, admin⟩) comp
      · exact fails _

theorem State.attachOne_change (s : State) : State.Change c s s.attachOne := by
  unfold State.attachOne
  split
  case h_1 =>
    simp only
    split
    · exact ((State.Quiet.refl c s).port _).change
    · exact ((State.Quiet.refl c s).port _).change
  all_goals exact .refl c s

theorem Lane.detaching_credit (configured : Bool) (l : Lane) : (l.detaching configured).credit ≤ l.credit := by
  simp only [Lane.detaching]
  split
  · exact Lane.settle_credit _
  · exact Nat.le_refl _

/-- A detach drops what is queued, held, taken and latched, and leaves every ring (R32, R61, R93, R152, R164). -/
theorem State.detachBegins_change (s : State) : State.Change c s s.detachBegins := by
  have units : State.Steady c s s.detachBegins := by
    refine ⟨id, fun hs i => ?_, fun _ => ⟨Nat.zero_le _, fun _ => Nat.zero_le _, fun e he => ?_, fun e i he => ?_⟩,
      .inl ⟨rfl, fun bs n met he => ?_⟩⟩
    · rw [State.detachBegins_lane]
      exact (Lane.detaching_credit _ _).trans (hs i)
    · change s.raster.detaching.offer = some e at he
      cases hr : s.raster <;> simp [hr, RasterUnit.detaching, RasterUnit.offer] at he
    · change s.admin.detaching = _ ∨ s.admin.detaching = _ at he
      cases ha : s.admin <;> simp [ha, AdminUnit.detaching] at he
    · change s.admin.detaching = _ at he
      cases ha : s.admin <;> simp [ha, AdminUnit.detaching] at he
  refine .of_steady units (.of_turn rfl (fun i => .inl ?_) fun i => ?_)
  · rw [State.detachBegins_stream]; rfl
  · rw [State.detachBegins_stream]
    exact .of_head id (fun _ => Stream.latchOk_of_empty rfl) fun r r' hr hr' => by rw [Option.some.inj (hr.symm.trans hr')]

theorem State.attachZero_change (s : State) : State.Change c s s.attachZero := by
  unfold State.attachZero
  split
  case h_2 =>
    split
    · exact .refl c s
    · split
      · exact ((State.Quiet.refl c s).port _).change
      · exact ((State.Quiet.refl c s).port _).change
  case h_3 => exact s.detachBegins_change
  case h_5 => exact s.detachBegins_change
  all_goals exact .refl c s

theorem State.writeControl_change (value : BitVec 32) (s : State) : State.Change c s (s.writeControl value) := by
  unfold State.writeControl
  split
  · exact s.functionReset_change _
  · split
    · exact s.attachOne_change
    · exact s.attachZero_change

theorem State.writeRegister_change (offset : BitVec 12) (size : Nat) (value : BitVec 32) (s : State) :
    State.Change c s (s.writeRegister offset size value) := by
  have port (p : Port) : State.Change c s { s with port := p } := ((State.Quiet.refl c s).port p).change
  unfold State.writeRegister
  split
  · exact .refl c s
  · split
    · exact s.writeControl_change _
    · exact port _
    · exact port _
    · exact s.notify_change _ _
    · exact port _
    · exact port _
    · exact .refl c s

/-! ## The finish of a host read (R169) -/

/-- FATAL takes every lane OFFLINE and leaves the other blocks (R172). -/
theorem State.Quiet.becomeFatal (code : FatalCode) (s : State) : State.Quiet c s (s.becomeFatal code) := by
  have offline : State.Quiet c s { s with lanes := s.lanes.map Lane.goOffline } :=
    State.Steady.quiet ((State.Steady.refl c s).of_lanes _ fun i => .inr (by rw [get_map]; exact Nat.zero_le _)) rfl rfl
  exact offline.port _

theorem State.adminReadEnds_change (res : Option (List Byte)) (s : State) : State.Change c s (s.adminReadEnds res) := by
  unfold State.adminReadEnds
  split
  case h_1 =>
    split
    case h_1 =>
      split
      · exact (State.Quiet.becomeFatal _ s).change
      · exact s.takeCommand_change _
    case h_2 =>
      refine ((State.Quiet.refl c s).adminUnit (fun _ _ _ he => by cases he) fun _ _ he => ?_).change
      rcases he with he | he <;> cases he
    all_goals exact .refl c s
  all_goals exact .refl c s

/-- The requests that are outstanding are not seen. -/
theorem State.Change.of_port {p : Port} (h : State.Change c { s with port := p } t) (hp : p.part = s.port.part) :
    State.Change c s t where
  adminRing := h.adminRing
  comp := h.comp
  credit := h.credit
  queue := h.queue
  command := h.command
  head hs hpart := h.head hs (hp.trans hpart)
  quota := h.quota
  hold hb := h.hold ⟨hb.live, hb.unique, hb.sending, hb.exact_, hb.idle, hb.abort⟩
  turn := h.turn

theorem State.readEnds_change (r : ReadReq) (res : Option (List Byte)) (s : State) :
    State.Change c s (s.readEnds r res) := by
  refine State.Change.of_port (p := { s.port with outstanding := s.port.outstanding.filter fun q => q.id != r.id }) ?_ rfl
  unfold State.readEnds
  simp only
  split
  · split
    · next hpart => exact State.attachEnds_change (by simp [hpart])
    · exact .refl c _
  · exact State.adminReadEnds_change _ _
  · exact ((State.Quiet.refl c _).recordReadEnds _).change
  · exact ((State.Quiet.refl c _).sourceReadEnds _ _).change

theorem State.takeCompletion_change (id offset : Nat) (data : List Byte) (good : Bool) (s : State) :
    State.Change c s (s.takeCompletion id offset data good) := by
  simp only [State.takeCompletion]
  split
  · exact .refl c s
  · split
    · exact .refl c s
    · split
      · split
        · exact s.readEnds_change _ _
        · exact ((State.Quiet.refl c s).port _).change
      · exact s.readEnds_change _ _

end Sys2Proof.Machine
end

section
/-!
What the admin rows do (chapter 2).
-/

namespace Sys2Proof.Machine

variable {c : Instr} {s t : State} {a : AdminCmd}

/-! ## Changes of the command's stream -/

/-- Changes of a stream and of lanes, whatever they do to the stream. -/
theorem State.Steady.mapStream (h : State.Steady c s t) (i : StreamId) (f : Stream → Stream) :
    State.Steady c s (t.mapStream i f) :=
  h.then (.of_units rfl rfl rfl rfl)

/-- A stream that resumes from HALTED has an EMPTY latch (R43, R58). -/
theorem Stream.Quiet.resumed {x : Stream} (h : (x.st == .halted) = true) : x.Quiet x.resumed where
  cfg := rfl
  ring := id
  moves ha hl := by
    have hst : x.st = .halted := eq_of_beq h
    have hlatch : x.latch = .empty := hl.empty (by simp [Stream.takesRecords, hst])
    refine ⟨Stream.abortOk_of_not_due (ha.not_due (.inl (by simp [hst]))), Stream.latchOk_of_empty hlatch,
      .stays rfl id (fun e => ?_) fun e => by simp [hst] at e⟩
    by_cases hret : x.ret = some .draining <;> simp [Stream.resumed, hret] at e

/-- A RUNNING stream that drains keeps its latch (R37, R58). -/
theorem Stream.Quiet.drains {x : Stream} (h : x.st = .running) (owed : DeferredStop) :
    x.Quiet { x with st := .draining, dstop := some owed } where
  cfg := rfl
  ring := id
  moves ha hl := ⟨Stream.abortOk_of_not_due (ha.not_due (.inl (by simp [h]))), fun hlatch => ⟨rfl, (hl hlatch).2⟩,
    .stays rfl id (fun e => by cases e) fun e => by simp [h] at e⟩

/-! ## The rows that change by the way -/

/-- A command whose refusals complete it and whose effect is a change by the way is one (R30). -/
theorem State.runCommand_quiet (hc : s.Carries c a) {k : Command} {taken : Stream → Lane → Bool} {fieldsOk : Bool}
    {effect : StreamId → State → State}
    (h : ∀ i, taken (s.stream i) (s.lane i) = true → State.Quiet c s (effect i s)) :
    State.Quiet c s (s.runCommand a k taken fieldsOk effect) :=
  State.runCommand_keeps (fun st extra => (State.Quiet.refl c s).complete hc st extra) h

theorem execUnknownCommand_quiet (h : execUnknownCommand s = .next t) : State.Quiet .unknownCommand s t := by
  unfold execUnknownCommand at h
  split at h <;> cases h
  · exact .refl _ s
  · next a ha =>
    refine (State.Quiet.refl _ s).complete (State.commandFor_carries ha fun bs hrow => ?_) _ _
    rw [rowTakes_eq, Option.isNone_iff_eq_none.1 hrow]
    rfl

theorem execStopStream_quiet (h : execStopStream s = .next t) : State.Quiet .stopStream s t := by
  unfold execStopStream at h
  split at h <;> cases h
  · exact .refl _ s
  · next a ha =>
    have hc := State.commandFor_carries ha (rowTakes_of_command (k := .stop) fun _ => rfl)
    refine State.runCommand_quiet hc fun i _ => ?_
    split
    · exact (State.Quiet.refl _ s).complete hc _ _
    · split
      · next hrun => exact State.Quiet.leaveCommand ((State.Quiet.refl _ s).mapStream (.drains hrun _)) hc
      · exact State.Quiet.leaveCommand ((State.Quiet.refl _ s).mapStream (.of_eq rfl rfl rfl rfl rfl rfl)) hc

theorem execClearStreamResume_quiet (h : execClearStreamResume s = .next t) : State.Quiet .clearStreamResume s t := by
  unfold execClearStreamResume at h
  split at h <;> cases h
  · exact .refl _ s
  · next a ha =>
    have hc := State.commandFor_carries ha
      (rowTakes_of_action (k := .clearStream) (p := (· != 1)) fun n hn => if_neg (by simpa using hn))
    refine State.runCommand_quiet hc fun i hi => ?_
    have resumed := (State.Quiet.refl .clearStreamResume s).mapStream (.resumed hi)
    exact (resumed.lookForDrainEnd i).complete hc _ _

theorem execClearStreamSkipBand_quiet (h : execClearStreamSkipBand s = .next t) : State.Quiet .clearStreamSkipBand s t := by
  unfold execClearStreamSkipBand at h
  split at h <;> cases h
  · exact .refl _ s
  · next a ha =>
    have hc := State.commandFor_carries ha
      (rowTakes_of_action (k := .clearStream) (p := (· == 1)) fun n hn => if_pos (by simpa using hn))
    refine State.runCommand_quiet hc fun i hi => ?_
    have resumed := (State.Quiet.refl .clearStreamSkipBand s).mapStream (.resumed hi)
    simp only
    split
    · exact (resumed.lookForDrainEnd i).complete hc _ _
    · next band _ =>
      split
      · exact (resumed.lookForDrainEnd i).complete hc _ _
      · next k _ =>
        have skipped := (resumed.discardSlot k).mapStream (i := i) (f := fun st => { st with skip := some band })
          (.of_eq rfl rfl rfl rfl rfl rfl)
        exact (skipped.lookForDrainEnd i).complete hc _ _

theorem execClearLaneResend_quiet (h : execClearLaneResend s = .next t) : State.Quiet .clearLaneResend s t := by
  unfold execClearLaneResend at h
  split at h <;> cases h
  · exact .refl _ s
  · next a ha =>
    have hc := State.commandFor_carries ha
      (rowTakes_of_action (k := .clearLane) (p := (· != 1)) fun n hn => if_neg (by simpa using hn))
    exact State.runCommand_quiet hc fun i _ =>
      (((State.Quiet.refl _ s).enterSyncing i).lookForDrainEnd i).complete hc _ _

theorem execClearLaneSkip_quiet (h : execClearLaneSkip s = .next t) : State.Quiet .clearLaneSkip s t := by
  unfold execClearLaneSkip at h
  split at h <;> cases h
  · exact .refl _ s
  · next a ha =>
    have hc := State.commandFor_carries ha
      (rowTakes_of_action (k := .clearLane) (p := (· == 1)) fun n hn => if_pos (by simpa using hn))
    refine State.runCommand_quiet hc fun i _ => ?_
    split
    · exact (((State.Quiet.refl _ s).enterSyncing i).lookForDrainEnd i).complete hc _ _
    · next k _ => exact ((((State.Quiet.refl _ s).skipBand i k).enterSyncing i).lookForDrainEnd i).complete hc _ _

theorem execQueryStream_quiet (h : execQueryStream s = .next t) : State.Quiet .queryStream s t := by
  unfold execQueryStream at h
  split at h <;> cases h
  · exact .refl _ s
  · next a ha =>
    have hc := State.commandFor_carries ha (rowTakes_of_command (k := .query) fun _ => rfl)
    refine State.runCommand_quiet hc fun i _ => ?_
    split
    · exact State.Quiet.complete ((State.Quiet.refl _ s).port _) hc _ _
    · exact (State.Quiet.refl _ s).awaits hc _ _ _ _

/-! ## The rows that set a stream's ring, configuration or state -/

/-- A command's refusals are changes by the way (R30). -/
theorem State.runCommand_change (hc : s.Carries c a) {k : Command} {taken : Stream → Lane → Bool} {fieldsOk : Bool}
    {effect : StreamId → State → State}
    (h : ∀ i, taken (s.stream i) (s.lane i) = true → fieldsOk = true → State.Change c s (effect i s)) :
    State.Change c s (s.runCommand a k taken fieldsOk effect) :=
  State.runCommand_keeps_checked (fun st extra => ((State.Quiet.refl c s).complete hc st extra).change) h

/-- A command's change of its stream, the changes of lanes beside it and its completion (R29). -/
theorem State.Change.complete {i : StreamId} {f : Stream → Stream} (hc : s.Carries c a) (h : State.Steady c s t)
    (streams : t.streams = (s.mapStream i f).streams) (bands : t.bands = s.bands)
    (hu : ∀ u : State, u.streams = (s.mapStream i f).streams → u.bands = s.bands → State.StreamsChange c s u) (st : Status)
    (extra : BitVec 32) : State.Change c s (t.complete a st extra) := by
  obtain ⟨_, hstreams, _, _, hbands, _⟩ := State.complete_frame a st extra t
  exact .of_steady (h.complete hc st extra) (hu _ (hstreams.trans streams) (hbands.trans bands))

/-- The quotas with a new configuration of stream `i` (R33, R34). -/
theorem State.quotaSum_setStream (s : State) (i : StreamId) (x : Stream) {y : StreamCfg} (hx : x.cfg = some y) :
    (s.setStream i x).quotaSum = s.otherQuotas i + y.quota := by
  rw [State.otherQuotas_eq]
  simp only [State.quotaSum, State.stream_setStream]
  fin_cases i <;> simp [List.finRange_succ, Stream.initial, hx] <;> omega

/-- An accepted CONFIGURE_STREAM: a legal ring, quotas within 64, and a stream that holds nothing (R19, R33, R34, R58). -/
theorem State.StreamsChange.configured {i : StreamId} {r : Ring} {x : StreamCfg} {u : State}
    (hst : (s.stream i).st = .unconfigured ∨ (s.stream i).st = .ready) (size : ringSizeOk r.size = true)
    (start : r.head = 0 ∧ r.tail = 0) (quota : s.otherQuotas i + x.quota ≤ Config.poolPages)
    (streams : u.streams = (s.mapStream i (Stream.configured r x)).streams) (bands : u.bands = s.bands) :
    State.StreamsChange .configureStream s u where
  quota _ := by
    have sum := s.quotaSum_setStream i (Stream.configured r x (s.stream i)) (y := x) rfl
    have same (j : StreamId) : u.stream j = (s.setStream i (Stream.configured r x (s.stream i))).stream j :=
      State.stream_congr streams j
    simp only [State.QuotaLaw, State.quotaSum, same] at sum ⊢
    exact sum ▸ quota
  hold hb hs j k hk := by
    have less := State.holdsLess_of_bands bands j
    rw [State.stream_congr streams, State.stream_mapStream] at hk
    split at hk
    · next hj =>
      obtain ⟨pages, opened⟩ := State.holds_nothing (hb.idle i (hst.imp id .inl))
      rw [hj] at less ⊢
      exact ⟨less.1.trans (pages ▸ Nat.zero_le _), less.2.trans (opened ▸ Nat.zero_le _)⟩
    · obtain ⟨pages, opened⟩ := hs j k hk
      exact ⟨less.1.trans pages, less.2.trans opened⟩
  turn j := by
    rw [State.stream_congr streams, State.stream_mapStream]
    split
    · next hj =>
      rw [hj]
      refine ⟨fun _ q hq => ?_, fun _ hl hlatch => ?_, fun _ _ _ q _ hq => ?_⟩
      · obtain rfl := Option.some.inj hq
        have pos := ringSizeOk_pos size
        exact ⟨size, start.1 ▸ pos, start.2 ▸ pos⟩
      · refine absurd (hl.empty ?_) hlatch
        rcases hst with e | e <;> simp [Stream.takesRecords, e]
      · obtain rfl := Option.some.inj hq
        exact .inr (.inr (.inr ⟨rfl, start⟩))
    · exact (Stream.Quiet.refl _).turn _

theorem execConfigureStream_change (h : execConfigureStream s = .next t) : State.Change .configureStream s t := by
  unfold execConfigureStream at h
  split at h <;> cases h
  · exact .refl _ s
  · next a ha =>
    have hc := State.commandFor_carries ha (rowTakes_of_command (k := .configure) fun _ => rfl)
    refine State.runCommand_change hc fun i hi hfields => ?_
    split
    · exact ((State.Quiet.refl _ s).complete hc _ _).change
    · split
      · exact ((State.Quiet.refl _ s).complete hc _ _).change
      · next hquota =>
        obtain ⟨_, size, _⟩ := configInRange_iff.1 hfields
        refine .complete hc ((State.Steady.refl _ s).mapStream i _) rfl rfl (fun u => ?_) _ _
        refine State.StreamsChange.configured ?_ (ringSizeOk_iff.2 size) ⟨rfl, rfl⟩ (Nat.le_of_not_lt hquota)
        simpa using hi

theorem execReleaseStream_change (h : execReleaseStream s = .next t) : State.Change .releaseStream s t := by
  unfold execReleaseStream at h
  split at h <;> cases h
  · exact .refl _ s
  · next a ha =>
    have hc := State.commandFor_carries ha (rowTakes_of_command (k := .release) fun _ => rfl)
    refine State.runCommand_change hc fun i _ _ => ?_
    refine .complete hc (((State.Steady.refl _ s).mapStream i _).mapLane (.inl (Nat.le_refl _))) rfl rfl
      (fun u hu hb => ?_) _ _
    exact .of_stream hb hu (.inr rfl) (.of_none rfl rfl)

/-- A start finds the latch EMPTY (R36, R58). -/
theorem execStartStream_change (h : execStartStream s = .next t) : State.Change .startStream s t := by
  unfold execStartStream at h
  split at h <;> cases h
  · exact .refl _ s
  · next a ha =>
    have hc := State.commandFor_carries ha (rowTakes_of_command (k := .start) fun _ => rfl)
    refine State.runCommand_change hc fun i hi _ => ?_
    refine .complete hc ((((State.Steady.refl _ s).mapStream i _).mapLane (.inl (Nat.le_refl _))).mapLane
      (.inl (Nat.le_refl _))) rfl rfl (fun u hu hb => ?_) _ _
    refine .of_stream hb hu (.inl rfl) (.of_head id (fun hl => ?_) fun r r' hr hr' => by
      rw [Option.some.inj (hr.symm.trans hr')])
    exact Stream.latchOk_of_empty (hl.empty (by simp [Stream.takesRecords, eq_of_beq hi]))

/-- An ABORT_STREAM in READY passes the records over; another begins an abort, with the latch EMPTY (R46, R47). -/
theorem execAbortStream_change (h : execAbortStream s = .next t) : State.Change .abortStream s t := by
  unfold execAbortStream at h
  split at h <;> cases h
  · exact .refl _ s
  · next a ha =>
    have hc := State.commandFor_carries ha (rowTakes_of_command (k := .abort) fun _ => rfl)
    refine State.runCommand_change hc fun i _ _ => ?_
    split
    · next hready =>
      refine .complete hc ((State.Steady.refl _ s).mapStream i _) rfl rfl (fun u hu hb => .of_stream hb hu (.inl rfl) ?_) _ _
      refine ⟨fun hx => hx.map rfl fun _ => Ring.Legal.emptied, fun _ hl => ?_, fun _ _ r r' hr hr' => ?_⟩
      · exact Stream.latchOk_of_empty (hl.empty (by simp [Stream.takesRecords, hready]))
      · simp only [hr, Option.map_some, Option.some.injEq] at hr'
        exact .inr (.inr (.inl ⟨.inl rfl, hr'.symm⟩))
    · rw [State.emptyLatch_mapStream]
      refine .of_steady (State.Steady.leaveCommand (.of_units rfl rfl rfl rfl) hc) (.of_stream rfl rfl (.inl rfl) ?_)
      exact .of_head id (fun _ => Stream.latchOk_of_empty rfl) fun r r' hr hr' => by rw [Option.some.inj (hr.symm.trans hr')]

end Sys2Proof.Machine
end

section
/-!
What every row does, as the laws of the rings, the queue, the quotas and the credit see it.
-/

namespace Sys2Proof.Machine

variable {c : Instr} {s t : State}

/-! ## Hand-overs -/

/-- OPEN_BAND opens within quota and window (R22, R64, R69). -/
theorem execOpenBand_quiet (h : execOpenBand s = .next t) : State.Quiet c s t := by
  cases h
  refine State.handOver_quiet fun h hi hh hv => ?_
  have refl := State.Quiet.refl c s
  obtain ⟨_, _, cfg, _⟩ := State.handFor_some hh
  simp only
  split
  · exact refl.failRecord hi _ _
  · split
    · exact refl.failRecord hi _ _
    · next hwindow =>
      split
      · exact refl
      · next k hk =>
        have opened : State.Quiet c s (s.openNew h.stream k (recBand h.bytes) h.cfg.pages) :=
          .openNew _ cfg (State.handFor_bandFits hh hv) (Nat.lt_of_not_le hwindow) (State.lowestFree_some hk)
        have held : ((s.openNew h.stream k (recBand h.bytes) h.cfg.pages).stream h.stream).HasRecord := by
          rw [State.openNew_stream_same]
          exact hi
        split
        · exact opened.beginOp held _ _ _
        · exact opened.finishRecord held _ _ _

theorem execFillRect_quiet (h : execFillRect s = .next t) : State.Quiet c s t := by
  cases h
  exact State.handOver_quiet fun h hi _ _ => (State.Quiet.refl c s).onOpen hi fun k => (State.Quiet.refl c s).beginOp hi _ _ _

theorem execPlace_quiet (h : execPlace s = .next t) : State.Quiet c s t := by
  cases h
  exact State.handOver_quiet fun h hi _ _ => (State.Quiet.refl c s).onOpen hi fun k => (State.Quiet.refl c s).beginOp hi _ _ _

theorem execCopyRect_quiet (h : execCopyRect s = .next t) : State.Quiet c s t := by
  cases h
  refine State.handOver_quiet fun h hi _ _ => (State.Quiet.refl c s).onOpen hi fun k => ?_
  split
  · exact (State.Quiet.refl c s).failRecord hi _ _
  · exact (State.Quiet.refl c s).beginOp hi _ _ _

theorem execCloseBand_quiet (h : execCloseBand s = .next t) : State.Quiet c s t := by
  cases h
  refine State.handOver_quiet fun h hi _ _ => (State.Quiet.refl c s).onOpen hi fun k => ?_
  refine State.Quiet.finishRecord ((State.Quiet.refl c s).mapSlot k fun b => ?_) hi _ _ _
  exact ⟨rfl, Nat.le_refl _, fun e => by cases e⟩

theorem execDiscardBand_quiet (h : execDiscardBand s = .next t) : State.Quiet c s t := by
  cases h
  refine State.handOver_quiet fun h hi _ _ => (State.Quiet.refl c s).onOpen hi fun k => ?_
  refine ((State.Quiet.refl c s).discardSlot k).finishRecord ?_ _ _ _
  rw [State.stream_congr (State.discardSlot_frame k s).2.2.2.1]
  exact hi

theorem execMark_quiet (h : execMark s = .next t) : State.Quiet c s t := by
  cases h
  refine State.handOver_quiet fun h hi _ _ => ?_
  simp only
  split
  · exact (State.Quiet.refl c s).finishRecord hi _ _ _
  · refine State.Quiet.finishRecord ((State.Quiet.refl c s).mapStream (.of_eq rfl rfl rfl rfl rfl rfl)) ?_ _ _ _
    rw [State.stream_mapStream_same]
    exact hi

theorem execUnknownRecordKind_quiet (h : execUnknownRecordKind s = .next t) : State.Quiet c s t := by
  unfold execUnknownRecordKind at h
  split at h <;> cases h
  · exact .refl c s
  · next hh => exact (State.Quiet.refl c s).failRecord (State.handFor_hasRecord hh) _ _

theorem execRingFault_quiet (h : execRingFault s = .next t) : State.Quiet c s t := by
  unfold execRingFault at h
  split at h
  · cases h; exact .refl c s
  · split at h <;> cases h
    · exact (State.Quiet.refl c s).ringFault _ _
    all_goals exact .refl c s

/-! ## Fetches, row writes, admissions and entry writes -/

/-- A fetch latches the index of the record at the head, which the ring counts (R58, R59). -/
theorem execRecordFetch_change (h : execRecordFetch s = .next t) : State.Change c s t := by
  unfold execRecordFetch at h
  split at h
  · cases h; exact .refl c s
  · next i hi =>
    split at h <;> cases h
    · exact .refl c s
    · next r hr =>
      have fetchable : (s.stream i).fetchable = true := by
        unfold State.fetchChoice at hi
        split at hi
        · have chosen := List.find?_some hi
          exact chosen
        · cases hi
      simp only [Stream.fetchable, hr, Option.any_some, Ring.isEmpty, Bool.and_eq_true, Bool.not_eq_true',
        beq_eq_false_iff_ne] at fetchable
      obtain ⟨⟨_, takes⟩, hne⟩ := fetchable
      refine .of_steady (.of_units rfl rfl rfl rfl) (.of_stream (x := { s.stream i with latch := .fetching r.head }) rfl rfl
        (.inl rfl) (.of_head id (fun _ _ => ⟨takes, r, hr, rfl, hne⟩) fun q q' hq hq' => ?_))
      rw [Option.some.inj (hq.symm.trans hq')]

theorem execAdminFetch_quiet (h : execAdminFetch s = .next t) : State.Quiet c s t := by
  unfold execAdminFetch at h
  split at h
  · split at h <;> cases h
    · refine State.Quiet.port (State.Quiet.adminUnit (x := .fetching) (.refl c s) (fun _ _ _ he => by cases he) ?_) _
      intro _ _ he
      rcases he with he | he <;> cases he
    · exact .refl c s
  · cases h; exact .refl c s

theorem execRowWrite_quiet (h : execRowWrite s = .next t) : State.Quiet c s t := by
  unfold execRowWrite at h
  split at h <;> cases h
  · split
    · exact (State.Quiet.refl c s).writeRow _
    · exact .refl c s
  all_goals exact .refl c s

/-- The arbiter admits an admissible offer into a free place (R151). -/
theorem execEntryAdmission_quiet (h : execEntryAdmission s = .next t) : State.Quiet c s t := by
  unfold execEntryAdmission at h
  split at h
  · next hroom =>
    split at h <;> cases h
    · exact .refl c s
    · next p hp =>
      have admitted := (State.Quiet.refl c s).admitOffer hroom.2 (State.chooseOffer_some hp).2
      cases p with
      | stream i => exact admitted.offerStream i
      | lane | raster | admin => exact admitted
  · cases h; exact .refl c s

theorem execCompletionEntryWrite_quiet (h : execCompletionEntryWrite s = .next t) : State.Quiet c s t := by
  unfold execCompletionEntryWrite at h
  split at h <;> cases h
  · split
    · exact (State.Quiet.refl c s).issueEntry
    · exact (State.Quiet.refl c s).port _
  · exact .refl c s

theorem execCoalesceTimerExpiry_quiet (h : execCoalesceTimerExpiry s = .next t) : State.Quiet c s t := by
  unfold execCoalesceTimerExpiry at h
  split at h <;> cases h
  · exact .refl c s
  · split
    · refine State.Quiet.raise ?_ _
      exact (State.Quiet.refl c s).ringUnit rfl rfl rfl
    · exact .refl c s

/-! ## Stream control's own steps -/

theorem execDrainAutoClose_quiet {i : StreamId} (h : execDrainAutoClose i s = .next t) : State.Quiet c s t := by
  unfold execDrainAutoClose at h
  split at h <;> cases h
  · exact (State.Quiet.refl c s).autoClose i
  · exact .refl c s

/-- The steps of an abort keep ring and latch; its ABORT completion is due at step 7 alone (R47 to R49). -/
theorem execAbortStep_quiet {i : StreamId} (h : execAbortStep i s = .next t) : State.Quiet c s t := by
  have refl := State.Quiet.refl c s
  unfold execAbortStep at h
  split at h
  · next hc =>
    split at h <;> cases h
    · next hat =>
      split
      · exact refl
      · have stopped : (s.stopLane i).stream i = s.stream i := State.stream_congr (State.stopLane_frame i s).2.2.2.1 i
        refine (refl.stopLane i).mapStream (.of_abort rfl rfl rfl rfl fun ha => ?_)
        exact Stream.abortOk_of_not_due (ha.not_due (.inr (by simp [stopped, hat])))
    · next hat =>
      split
      · have freed : (s.freeAll i).stream i = s.stream i := State.stream_congr (State.freeAll_frame i s).2.2.2.1 i
        refine State.Quiet.offerStream ((refl.freeAll i).mapStream (.of_abort rfl rfl rfl rfl fun ha => ?_)) i
        exact Stream.abortOk_of_not_due (ha.not_due (.inr (by simp [freed, hat])))
      · exact refl
    · next hat =>
      split
      · refine State.Quiet.offerStream (refl.mapStream (.of_abort rfl rfl rfl rfl fun ha => ?_)) i
        exact Stream.abortOk_of_not_due (ha.not_due (.inr (by simp [hat])))
      · exact refl
    · split
      · exact State.Quiet.offerStream (refl.mapStream (.of_abort rfl rfl rfl rfl fun _ _ _ _ => ⟨hc.2, rfl⟩)) i
      · exact refl
    all_goals exact refl
  · cases h; exact refl

/-! ## The lanes' rows -/

theorem execSyncSend_quiet {i : StreamId} (h : execSyncSend i s = .next t) : State.Quiet c s t := by
  unfold execSyncSend at h
  split at h
  · cases h; exact .refl c s
  · split at h <;> cases h
    · exact (State.Quiet.refl c s).keepCredit (Lane.send_credit _ i _ _)
    · exact .refl c s

theorem execBandStart_quiet {i : StreamId} (h : execBandStart i s = .next t) : State.Quiet c s t := by
  unfold execBandStart at h
  split at h <;> cases h
  · exact .refl c s
  · exact (State.Quiet.refl c s).startBand i _

theorem execBadFrame_quiet {i : StreamId} {bytes : List Byte} (h : execBadFrame i bytes s = .next t) :
    State.Quiet c s t := by
  have refl := State.Quiet.refl c s
  unfold execBadFrame at h
  split at h <;> cases h
  · exact refl.countBad i
  · exact refl.reply fun o => refl.acceptTaken i o
  · exact refl.reply fun o => refl.waitTaken i o
  · exact refl.reply fun o => refl.refuseTaken i _ o
  · exact refl.takeCredit i _

theorem execReplyTimerExpiry_quiet {i : StreamId} (h : execReplyTimerExpiry i s = .next t) : State.Quiet c s t := by
  unfold execReplyTimerExpiry at h
  split at h <;> cases h
  · exact .refl c s
  · split
    · exact (State.Quiet.refl c s).replyExpired i _
    · exact .refl c s

theorem execWaitTimerExpiry_quiet {i : StreamId} (h : execWaitTimerExpiry i s = .next t) : State.Quiet c s t := by
  unfold execWaitTimerExpiry at h
  split at h <;> cases h
  · exact .refl c s
  · split
    · exact (State.Quiet.refl c s).keepCredit (Lane.transmit_credit _ i _)
    · exact .refl c s

theorem execStarveTimerExpiry_quiet {i : StreamId} (h : execStarveTimerExpiry i s = .next t) : State.Quiet c s t := by
  cases h
  split
  · exact State.Quiet.postEvent ((State.Quiet.refl c s).keepCredit rfl) i _
  · exact .refl c s

/-! ## The inversion of a row -/

/-- Everything a row does, as the laws see it. -/
theorem exec_change (h : exec c s = .next t) : State.Change c s t := by
  have refl := State.Quiet.refl c s
  have port (p : Port) : State.Change c s { s with port := p } := (refl.port p).change
  cases c with
  | powerOn =>
    cases h
    exact .of_initial rfl (fun i => by rw [State.lane]; simp [State.reset, Lane.initial]) rfl rfl rfl (.inl rfl)
      fun _ hk => by cases hk
  | fundamentalReset => cases h; exact s.functionReset_change _
  | functionReset attach => cases h; exact s.writeControl_change _
  | attach => cases h; exact s.writeControl_change _
  | attachCancel => cases h; exact s.writeControl_change _
  | detach => cases h; exact s.writeControl_change _
  | detachEnd =>
    simp only [exec, execDetachEnd] at h
    split at h <;> cases h
    · exact .of_initial rfl s.initialBlocks_credit rfl rfl rfl (.inl rfl) fun _ hk => by cases hk
    · exact .refl _ s
  | notifyAdminTail index => cases h; exact s.notify_change _ _
  | notifyStreamTail stream index => cases h; exact s.notify_change _ _
  | notifyRelease index => cases h; exact s.notify_change _ _
  | notifyUnusedQueue queue index => cases h; exact s.notify_change _ _
  | eventCauseWrite value => cases h; exact port _
  | eventMaskWrite value => cases h; exact port _
  | registerWrite offset size value => cases h; exact s.writeRegister_change _ _ _
  | configBusMasterEnable busMaster messages =>
    cases h
    refine State.Quiet.change ?_
    split
    · exact (refl.port _).drainWaiting
    · split
      · exact refl.port _
      · exact refl.port _
  | configBusMasterDisable busMaster messages => cases h; exact port _
  | linkLoss =>
    cases h
    refine State.Quiet.change ?_
    split
    · exact (refl.port _).then (.becomeFatal _ _)
    · exact refl.port _
  | linkUp =>
    cases h
    refine State.Quiet.change ?_
    split
    · exact (refl.port _).drainWaiting
    · exact refl.port _
  | readCompletion request offset data good => cases h; exact s.takeCompletion_change _ _ _ _
  | readLimitExpiry request =>
    simp only [exec, execReadLimitExpiry] at h
    split at h <;> cases h
    · exact s.readEnds_change _ _
    · exact .refl _ s
  | adminFetch => exact (execAdminFetch_quiet h).change
  | unknownCommand => exact (execUnknownCommand_quiet h).change
  | configureStream => exact execConfigureStream_change h
  | startStream => exact execStartStream_change h
  | stopStream => exact (execStopStream_quiet h).change
  | abortStream => exact execAbortStream_change h
  | releaseStream => exact execReleaseStream_change h
  | clearStreamResume => exact (execClearStreamResume_quiet h).change
  | clearStreamSkipBand => exact (execClearStreamSkipBand_quiet h).change
  | clearLaneResend => exact (execClearLaneResend_quiet h).change
  | clearLaneSkip => exact (execClearLaneSkip_quiet h).change
  | queryStream => exact (execQueryStream_quiet h).change
  | recordFetch => exact execRecordFetch_change h
  | ringFault => exact (execRingFault_quiet h).change
  | unknownRecordKind => exact (execUnknownRecordKind_quiet h).change
  | openBand => exact (execOpenBand_quiet h).change
  | fillRect => exact (execFillRect_quiet h).change
  | place => exact (execPlace_quiet h).change
  | copyRect => exact (execCopyRect_quiet h).change
  | closeBand => exact (execCloseBand_quiet h).change
  | discardBand => exact (execDiscardBand_quiet h).change
  | mark => exact (execMark_quiet h).change
  | rowWrite => exact (execRowWrite_quiet h).change
  | entryAdmission => exact (execEntryAdmission_quiet h).change
  | completionEntryWrite => exact (execCompletionEntryWrite_quiet h).change
  | coalesceTimerExpiry => exact (execCoalesceTimerExpiry_quiet h).change
  | drainAutoClose stream => exact (execDrainAutoClose_quiet h).change
  | drainEnd stream => cases h; exact (refl.lookForDrainEnd stream).change
  | abortStep stream => exact (execAbortStep_quiet h).change
  | syncSend lane => exact (execSyncSend_quiet h).change
  | bandStart lane => exact (execBandStart_quiet h).change
  | frameSent lane => cases h; exact (refl.keepCredit (Lane.transmissionEnds_credit _ lane _)).change
  | accept lane seq => cases h; exact (refl.reply fun o => refl.acceptTaken lane o).change
  | wait lane seq => cases h; exact (refl.reply fun o => refl.waitTaken lane o).change
  | refuse lane seq reason => cases h; exact (refl.reply fun o => refl.refuseTaken lane reason o).change
  | credit lane grant =>
    cases h
    refine State.Quiet.change ?_
    split
    · exact refl.countBad lane
    · exact refl.takeCredit lane grant
  | badFrame lane bytes => exact (execBadFrame_quiet h).change
  | replyTimerExpiry lane => exact (execReplyTimerExpiry_quiet h).change
  | waitTimerExpiry lane => exact (execWaitTimerExpiry_quiet h).change
  | starveTimerExpiry lane => exact (execStarveTimerExpiry_quiet h).change

end Sys2Proof.Machine

namespace Sys2Proof.Machine

/-! ## The laws that every step keeps -/

/-- Settles O4: whatever its row, a step admits into a free place alone, and a lane's offer only without an entry of it. -/
theorem stepsKeepTheQueueLaw : Obligations.StepsKeepTheQueueLaw := by
  intro s t hq hstep
  unfold step at hstep
  split at hstep
  · cases hstep; exact hq
  · exact (exec_change hstep).queue hq

/-- Settles O6: what the front command's row does to the units and to each stream. -/
theorem stepsKeepRingsQuotasAndCredit : Obligations.StepsKeepRingsQuotasAndCredit := by
  intro s t hstep
  unfold step at hstep
  split at hstep
  · cases hstep
    refine ⟨id, id, id, fun _ => id, fun _ => id, id, fun r r' _ _ hr hr' => .inl ?_, fun i r r' _ _ hr hr' => .inl ?_⟩
    · rw [Option.some.inj (hr.symm.trans hr')]
    · rw [Option.some.inj (hr.symm.trans hr')]
  · next c rest hpending =>
    have change := exec_change hstep
    refine ⟨fun ⟨admin, comp, streams⟩ => ⟨change.adminRing admin, change.comp comp,
        fun i => (change.turn i).ring (streams i)⟩,
      change.quota, change.credit, fun hb => change.hold ⟨hb.live, hb.unique, hb.sending, hb.exact_, hb.idle, hb.abort⟩,
      fun ha hl i => (change.turn i).latch (ha i) (hl i), change.command, fun r r' hc hpart hr hr' => ?_,
      fun i r r' ha hl hr hr' => ?_⟩
    · refine (change.head hc hpart r r' hr hr').imp id fun ⟨hne, bs, met, hadmin, hrow, hpast⟩ => ?_
      exact ⟨hne, bs, met, hadmin, ⟨rest, hrow ▸ hpending⟩, hpast⟩
    · rcases (change.turn i).head (ha i) (hl i) r r' hr hr' with stays | past | ⟨row, emptied⟩ | ⟨row, zero⟩
      · exact .inl stays
      · exact .inr (.inl past)
      · exact .inr (.inr (.inl ⟨row.imp (fun e : c = .abortStream => ⟨rest, e ▸ hpending⟩) id, emptied⟩))
      · exact .inr (.inr (.inr ⟨⟨rest, row ▸ hpending⟩, zero⟩))

end Sys2Proof.Machine
end

section
/-!
The system port: attach and its cancel, the end of a detach, and the registers of the window (R157 to R165).
-/

namespace Sys2Proof.Machine

variable {s : State}

/-! ## Attach and its cancel -/

theorem aligned64_iff {a : BitVec 64} : aligned64 a = true ↔ a.toNat % 64 = 0 := beq_iff_eq

/-- Row ATTACH is ATTACH written 1 (R158, R161). -/
theorem exec_attach (s : State) : exec .attach s = .next s.attachOne := by
  show Host.Outcome.next (s.writeControl 1#32) = _
  simp [State.writeControl]

/-- Row ATTACH_CANCEL is ATTACH written 0 (R158, R163). -/
theorem exec_attachCancel (s : State) : exec .attachCancel s = .next s.attachZero := by
  show Host.Outcome.next (s.writeControl 0#32) = _
  rw [State.writeControl_zero]

/-- Row DETACH is ATTACH written 0 (R158, R164). -/
theorem exec_detach (s : State) : exec .detach s = .next s.attachZero := by
  show Host.Outcome.next (s.writeControl 0#32) = _
  rw [State.writeControl_zero]

/-- The port as ATTACH written 1 leaves it to the attach: its codes are clear (R158, R162). -/
def Port.cleared (p : Port) : Port := { p with attachCode := .none, fatalCode := .none, cancelled := false }

/-- ATTACH in DETACHED asks for the context block at an address that is a multiple of 64 (R161). -/
theorem State.attachOne_aligned (hpart : s.port.part = .detached) (h : s.port.contextAddr.toNat % 64 = 0) : s.attachOne =
    { s with port := ({ s.port.cleared with part := .attaching } : Port).askRead .attach s.port.contextAddr 128 } := by
  simp only [State.attachOne, hpart]
  exact if_pos (aligned64_iff.2 h)

/-- At another address the attach fails at once (R162). -/
theorem State.attachOne_misaligned (hpart : s.port.part = .detached) (h : s.port.contextAddr.toNat % 64 ≠ 0) :
    s.attachOne = ({ s with port := s.port.cleared } : State).attachFails .contextAlign := by
  simp only [State.attachOne, hpart]
  exact if_neg (mt aligned64_iff.1 h)

theorem State.attachOne_of_not_detached (hpart : s.port.part ≠ .detached) : s.attachOne = s := by
  unfold State.attachOne
  split
  · exact absurd ‹_› hpart
  all_goals rfl

/-- Settles O17: the read issued, the read that waits, the misaligned address, and the other part states. -/
theorem attachReadsTheContextBlock : Obligations.AttachReadsTheContextBlock := by
  intro s addr p
  have port {q q' : Port} (h : q = q') : (.next { s with port := q } : Host.Outcome State Fault Refusal) =
      .next { s with port := q' } := h ▸ rfl
  rw [exec_attach]
  refine ⟨fun hpart haddr hbus hlink => ?_, fun hpart haddr hclosed => ?_, fun hpart haddr => ?_, fun hpart => ?_⟩
  · have opened : s.port.canIssue = true := by simp [Port.canIssue, hbus, hlink]
    rw [State.attachOne_aligned hpart haddr]
    exact port (if_pos opened)
  · have closed : ¬s.port.canIssue = true := by rcases hclosed with h | h <;> simp [Port.canIssue, h]
    rw [State.attachOne_aligned hpart haddr]
    exact port (if_neg closed)
  · rw [State.attachOne_misaligned hpart haddr]
    simp only [State.attachFails, State.raise, Port.cleared, p, hpart]
  · rw [State.attachOne_of_not_detached hpart]

/-- ATTACH written 0 in ATTACHING (R163). -/
theorem State.attachZero_attaching (h : s.port.part = .attaching) : s.attachZero =
    if s.port.cancelled then s
    else if s.port.waiting.any LinkAsk.isContext then
      ({ s with port := { s.port with waiting := s.port.waiting.filter fun a => !a.isContext } } : State).attachFails
        .cancelled
    else { s with port := { s.port with cancelled := true } } := by
  simp only [State.attachZero, h]

/-- Settles O18: the cancel of a read outstanding, of a read that waits, and the second cancel. -/
theorem attachCancelEndsTheAttach : Obligations.AttachCancelEndsTheAttach := by
  intro s hpart
  rw [exec_attachCancel, State.attachZero_attaching hpart]
  refine ⟨fun hc hw => ?_, fun hc hw => ?_, fun hc => ?_⟩
  · simp only [hc, hw, Bool.false_eq_true, if_false]
  · simp only [hc, hw, Bool.false_eq_true, if_false, if_true]
    rfl
  · rw [if_pos hc]

/-! ## The end of a detach -/

/-- Every lane is OFFLINE (R165). -/
theorem State.lanes_offline_iff :
    (s.lanes.all fun l => l.state == .offline) = true ↔ ∀ i, (s.lane i).state = .offline := by
  simp [State.lane, Vector.get_eq_getElem, Fin.forall_iff]

/-- Settles O20: the end of a detach, and each condition that holds it back. -/
theorem detachEndsWithLanesOfflineAndNoRead : Obligations.DetachEndsWithLanesOfflineAndNoRead := by
  refine fun s => ⟨fun hpart hlanes hreads => ?_, fun hwait => ?_⟩
  · exact if_pos ⟨hpart, State.lanes_offline_iff.2 hlanes, hreads⟩
  · refine if_neg fun ⟨hpart, hlanes, hreads⟩ => ?_
    rcases hwait with h | ⟨i, h⟩ | h
    · exact h hpart
    · exact h (State.lanes_offline_iff.1 hlanes i)
    · exact h hreads

/-! ## The registers of the window -/

/-- A write of another size, or of an offset without a writable register, is ignored (R157). -/
theorem State.writeRegister_ignored {offset : BitVec 12} {size : Nat}
    (h : size ≠ 4 ∨ (offset ≠ 0x004#12 ∧ offset ≠ 0x00C#12 ∧ offset ≠ 0x010#12 ∧ offset ≠ 0x014#12 ∧ offset ≠ 0x018#12 ∧
      offset ≠ 0x01C#12)) (value : BitVec 32) (s : State) : s.writeRegister offset size value = s := by
  unfold State.writeRegister
  split
  · rfl
  · next hsize =>
    obtain ⟨control, lo, hi, notify, cause, mask⟩ := h.resolve_left hsize
    split
    · exact absurd (BitVec.eq_of_toNat_eq ‹_›) control
    · exact absurd (BitVec.eq_of_toNat_eq ‹_›) lo
    · exact absurd (BitVec.eq_of_toNat_eq ‹_›) hi
    · exact absurd (BitVec.eq_of_toNat_eq ‹_›) notify
    · exact absurd (BitVec.eq_of_toNat_eq ‹_›) cause
    · exact absurd (BitVec.eq_of_toNat_eq ‹_›) mask
    · rfl

/-- What a 32-bit write of CONTROL does, by its bits (R158). -/
theorem State.writeControl_cases (value : BitVec 32) (s : State) :
    (value.getLsbD 1 = true → s.writeControl value = s.functionReset) ∧
    (value.getLsbD 1 = false → value.getLsbD 0 = true → s.writeControl value = s.attachOne) ∧
    (value.getLsbD 1 = false → value.getLsbD 0 = false → s.writeControl value = s.attachZero) := by
  simp +contextual [State.writeControl]

/-- Row FUNCTION_RESET is a function reset, whatever its ATTACH bit (R158, R166). -/
theorem exec_functionReset (attach : Bool) (s : State) : exec (.functionReset attach) s = .next s.functionReset := by
  show Host.Outcome.next (s.writeControl (if attach then 3#32 else 2#32)) = _
  rw [State.writeControl_reset]

/-- A read of another size, above the registers or off their boundaries gives 0 (R157). -/
theorem readRegister_none {offset : BitVec 12} {size : Nat}
    (h : size ≠ 4 ∨ 0x020 ≤ offset.toNat ∨ offset.toNat % 4 ≠ 0) (p : Port) : readRegister p offset size = 0#32 := by
  unfold readRegister
  split
  · rfl
  · next hsize =>
    replace h := h.resolve_left hsize
    split
    case h_8 => rfl
    all_goals omega

/-- The three codes in STATUS stand in fields of their own (R157). -/
theorem readRegister_status (p : Port) : (readRegister p 0x008#12 4).toNat =
    p.part.code + 2 ^ 8 * p.attachCode.code + 2 ^ 16 * p.fatalCode.code := by
  have part : p.part.code ≤ 4 := by cases p.part <;> decide
  have attach : p.attachCode.code ≤ 8 := by cases p.attachCode <;> decide
  have fatal : p.fatalCode.code ≤ 2 := by cases p.fatalCode <;> decide
  show (BitVec.ofNat 32 (p.part.code + 256 * p.attachCode.code + 65536 * p.fatalCode.code)).toNat = _
  rw [BitVec.toNat_ofNat, Nat.mod_eq_of_lt (by omega)]
  rfl

/-- When ATTACH reads 1 (R158). -/
theorem Port.attachBit_iff {p : Port} : p.attachBit = true ↔
    p.part = .attached ∨ p.part = .fatal ∨ (p.part = .attaching ∧ p.cancelled = false) := by
  simp [Port.attachBit, or_assoc]

/-- CONTROL shows the ATTACH bit alone (R158). -/
theorem readRegister_control (p : Port) : readRegister p 0x004#12 4 =
    if p.part = .attached ∨ p.part = .fatal ∨ (p.part = .attaching ∧ p.cancelled = false) then 1#32 else 0#32 := by
  simp only [← Port.attachBit_iff]
  show BitVec.ofNat 32 p.attachBit.toNat = _
  cases p.attachBit <;> rfl

/-- EVENT_CAUSE and EVENT_MASK show the four causes in bits 0 to 3 (R157). -/
theorem Causes.toWord_bit (c : Causes) (b : Fin 32) : c.toWord.getLsbD b.val =
    match b with
    | 0 => c.completion
    | 1 => c.attach
    | 2 => c.fatal
    | 3 => c.notifyError
    | _ => false := by
  obtain ⟨completion, attach, fatal, notifyError⟩ := c
  revert b
  cases completion <;> cases attach <;> cases fatal <;> cases notifyError <;> decide

/-- Settles O25: each register's write is that of its row, and each register's read. -/
theorem registerAccessesReachTheirRegister : Obligations.RegisterAccessesReachTheirRegister := by
  intro s offset size value i queue index
  obtain ⟨reset, one, zero⟩ := s.writeControl_cases value
  have control : exec (.registerWrite 0x004#12 4 value) s = .next (s.writeControl value) := rfl
  have notify : exec (.registerWrite 0x014#12 4 value) s = .next (s.notify queue index) := rfl
  refine ⟨rfl, rfl, fun h1 => ?_, fun h1 h0 => ?_, fun h1 h0 => ?_, fun hq => ?_, fun hq => ?_, fun hq => ?_, fun _ => rfl, rfl,
    rfl, fun h => ?_, rfl, rfl, rfl, rfl, readRegister_control _, ?_, ?_, fun h => readRegister_none h _⟩
  · rw [control, reset h1, exec_functionReset]
  · rw [control, one h1 h0, exec_attach]
  · rw [control, zero h1 h0]
    split
    · rw [exec_attachCancel]
    · rw [exec_detach]
  · rw [notify, hq]; rfl
  · have hqueue : queue = BitVec.ofNat 8 (1 + i.val) := BitVec.eq_of_toNat_eq (by simp [hq]; omega)
    rw [notify, hqueue]; rfl
  · rw [notify, hq]; rfl
  · exact congrArg Host.Outcome.next (State.writeRegister_ignored h value s)
  · rw [readRegister_status]; rfl
  · rintro x (rfl | rfl) b
    · exact Causes.toWord_bit s.port.cause b
    · exact Causes.toWord_bit s.port.mask b

end Sys2Proof.Machine
end

section
/-!
The context read: the checks of the block it brings, and how its end is the attach's end (R161 to R163).
-/

namespace Sys2Proof.Machine

variable {s : State} {q : ReadReq} {bs : List Byte}

/-! ## The checks of the context block -/

/-- A ring's base and size pass the checks (R162). -/
theorem ringFields_iff {base : BitVec 64} {size : Nat} : (aligned64 base && ringSizeOk size) = true ↔
    base.toNat % 64 = 0 ∧ ∃ e, 4 ≤ e ∧ e ≤ 12 ∧ size = 2 ^ e := by
  rw [Bool.and_eq_true, aligned64_iff, ringSizeOk_iff]

/-- The coalescing count is out of its range (R162). -/
theorem coalesceCount_iff {b : Byte} : (b == 0#8 || b.toNat > 64) = true ↔ ¬(1 ≤ b.toNat ∧ b.toNat ≤ 64) := by
  have zero : b = 0#8 ↔ b.toNat = 0 := BitVec.toNat_inj.symm
  simp only [Bool.or_eq_true, beq_iff_eq, decide_eq_true_eq, zero]
  omega

/-- The code of the first check to fail tells which checks pass (R162). -/
theorem firstFailure_iff {zero admin comp noLimit noCount : Bool} {code : AttachCode}
    (h : code = if !zero then .reserved else if !admin then .adminRing else if !comp then .completionRing
      else if noLimit then .readLimit else if noCount then .coalesce else .none) :
    (code = .none ↔ zero = true ∧ admin = true ∧ comp = true ∧ ¬noLimit = true ∧ ¬noCount = true) ∧
    (code = .reserved ↔ ¬zero = true) ∧ (code = .adminRing ↔ zero = true ∧ ¬admin = true) ∧
    (code = .completionRing ↔ zero = true ∧ admin = true ∧ ¬comp = true) ∧
    (code = .readLimit ↔ zero = true ∧ admin = true ∧ comp = true ∧ noLimit = true) ∧
    (code = .coalesce ↔ zero = true ∧ admin = true ∧ comp = true ∧ ¬noLimit = true ∧ noCount = true) := by
  subst h
  cases zero
  case false => simp
  cases admin
  case false => simp
  cases comp
  case false => simp
  cases noLimit
  case true => simp
  cases noCount <;> simp

/-! ## The end of the read -/

/-- The context read finishes: the attach ends (R162, R169). -/
theorem State.readEnds_context (hwho : q.who = .attach) (hpart : s.port.part = .attaching) (res : Option (List Byte)) :
    s.readEnds q res = (s.withoutRead q).attachEnds res := by
  simp only [State.readEnds, hwho]
  exact if_pos hpart

/-- A cancelled attach ends so, whatever the read brought (R163). -/
theorem State.attachEnds_cancelled (h : s.port.cancelled = true) (res : Option (List Byte)) :
    s.attachEnds res = s.attachFails .cancelled := if_pos h

/-- A fault of the read ends the attach (R162). -/
theorem State.attachEnds_fault (h : s.port.cancelled = false) : s.attachEnds none = s.attachFails .contextRead := by
  simp [State.attachEnds, h]

/-- A block that fails a check ends the attach with the check's code (R162). -/
theorem State.attachEnds_bad (h : s.port.cancelled = false) (hbs : contextCode bs ≠ .none) :
    s.attachEnds (some bs) = s.attachFails (contextCode bs) := by
  simp [State.attachEnds, h, hbs]

/-- A valid block ends it with success (R162). -/
theorem State.attachEnds_good (h : s.port.cancelled = false) (hbs : contextCode bs = .none) :
    s.attachEnds (some bs) = s.attachSucceeds bs := by
  simp [State.attachEnds, h, hbs]

/-- The fields that setting causes leaves alone beside those of `Port.raise_frame` (R155, R170). -/
theorem Port.raise_keeps (c : Causes) (p : Port) :
    (p.raise c).attachCode = p.attachCode ∧ (p.raise c).readLimit = p.readLimit ∧ (p.raise c).cancelled = p.cancelled := by
  simp only [Port.raise, Port.setEvents, Port.askMessage]
  split_ifs <;> simp

/-- The port of a part that has attached (R162). -/
theorem State.attachSucceeds_port (bs : List Byte) (s : State) :
    (s.attachSucceeds bs).port.part = .attached ∧ (s.attachSucceeds bs).port.attachCode = s.port.attachCode ∧
      (s.attachSucceeds bs).port.cause.attach = true ∧
      (s.attachSucceeds bs).port.readLimit = some (byteAt bs 20).toNat ∧
      (s.attachSucceeds bs).port.outstanding = s.port.outstanding := by
  unfold State.attachSucceeds
  obtain ⟨part, _, reads, cause, _⟩ := Port.raise_frame .ofAttach
    { s.port with part := .attached, cancelled := false, readLimit := some (byteAt bs 20).toNat }
  obtain ⟨code, limit, _⟩ := Port.raise_keeps .ofAttach
    { s.port with part := .attached, cancelled := false, readLimit := some (byteAt bs 20).toNat }
  exact ⟨part, code, (congrArg Causes.attach cause).trans (Bool.or_true _), limit, reads⟩

/-- Every lane of a part that has attached is initial, but for a transmission under way (R94, R162). -/
theorem State.attachSucceeds_lane (bs : List Byte) (s : State) (i : StreamId) :
    (s.attachSucceeds bs).lane i = (s.lane i).detached := by
  simp [State.attachSucceeds, State.initialBlocks, State.lane]

theorem State.attachSucceeds_stream (bs : List Byte) (s : State) (i : StreamId) :
    (s.attachSucceeds bs).stream i = Stream.initial := by
  simp [State.attachSucceeds, State.initialBlocks, State.stream]

theorem State.attachSucceeds_slot (bs : List Byte) (s : State) (k : SlotId) : (s.attachSucceeds bs).slot k = none := by
  simp [State.attachSucceeds, State.initialBlocks, State.slot]

/-! ## What ends it -/

section Rows

variable {id off : Nat} {data : List Byte}

/-- The limit's expiry finishes an outstanding read with a fault (R169). -/
theorem exec_readLimitExpiry (hq : s.port.request id = some q) :
    exec (.readLimitExpiry id) s = .next (s.readEnds q none) := by
  simp only [exec, execReadLimitExpiry, hq]

/-- So does a completion with error status (R169). -/
theorem exec_readCompletion_error (hq : s.port.request id = some q) (hlost : q.lost = false) :
    exec (.readCompletion id off data false) s = .next (s.readEnds q none) := by
  simp [exec, execReadCompletion, State.takeCompletion, hq, hlost]

/-- The last bytes finish it with all of them (R169). -/
theorem exec_readCompletion_whole (hq : s.port.request id = some q) (hlost : q.lost = false)
    (hbs : (q.fill off data).whole = some bs) :
    exec (.readCompletion id off data true) s = .next (s.readEnds q (some bs)) := by
  simp [exec, execReadCompletion, State.takeCompletion, hq, hlost, hbs]

/-- The completions of a read that the link lost are discarded (R163, R169). -/
theorem exec_readCompletion_lost (hq : s.port.request id = some q) (hlost : q.lost = true) (good : Bool) :
    exec (.readCompletion id off data good) s = .next s := by
  simp [exec, execReadCompletion, State.takeCompletion, hq, hlost]

end Rows

/-- Settles O30: the checks in order, then the end of a cancelled attach, of a lost read, and of every other. -/
theorem contextReadsEndTheAttach : Obligations.ContextReadsEndTheAttach := by
  refine ⟨fun bs => ?_, fun s id off data q hq hwho hpart => ?_⟩
  · intro zero admin comp limit count
    have reserved : zeroBytes bs 23 105 = true ↔ zero := zeroBytes_iff
    have noLimit : (byteAt bs 20 == 0#8) = true ↔ ¬limit := beq_iff_eq.trans not_not.symm
    have codes := firstFailure_iff (code := contextCode bs) rfl
    simp only [reserved, ringFields_iff, noLimit, coalesceCount_iff, not_not] at codes
    exact codes
  · intro rest failed
    have ends := State.readEnds_context hwho hpart
    refine ⟨fun hc => ?_, fun hlost => ⟨exec_readCompletion_lost hq hlost _, exec_readCompletion_lost hq hlost _⟩,
      fun hc => ?_⟩
    · have cancelled (res : Option (List Byte)) : s.readEnds q res = failed .cancelled :=
        (ends res).trans (State.attachEnds_cancelled (by exact hc) res)
      refine ⟨?_, fun hlost => ⟨fun hwhole => ?_, ?_⟩⟩
      · rw [exec_readLimitExpiry hq, cancelled]
      · obtain ⟨bs, hbs⟩ := Option.ne_none_iff_exists'.1 hwhole
        rw [exec_readCompletion_whole hq hlost hbs, cancelled]
      · rw [exec_readCompletion_error hq hlost, cancelled]
    · have fault : s.readEnds q none = failed .contextRead := (ends none).trans (State.attachEnds_fault (by exact hc))
      refine ⟨?_, fun hlost => ?_, fun bs hlost hbs => ?_⟩
      · rw [exec_readLimitExpiry hq, fault]
      · rw [exec_readCompletion_error hq hlost, fault]
      · rw [exec_readCompletion_whole hq hlost hbs, ends]
        refine ⟨fun hcode => ?_, fun hcode => ?_⟩
        · rw [State.attachEnds_bad (by exact hc) hcode]; rfl
        · obtain ⟨part, code, cause, limit, reads⟩ := (s.withoutRead q).attachSucceeds_port bs
          refine ⟨_, congrArg Host.Outcome.next (State.attachEnds_good hc hcode), part, code, cause, limit, reads, rfl, rfl, rfl,
            rfl, (s.withoutRead q).attachSucceeds_stream bs, fun i => ?_, rfl, (s.withoutRead q).attachSucceeds_slot bs, rfl⟩
          rw [State.attachSucceeds_lane]
          exact ⟨rfl, rfl, rfl⟩

end Sys2Proof.Machine
end

section
/-!
The part state (R160): the operations that leave it alone, and the row by row moves of the others.
-/

namespace Sys2Proof.Machine

variable {s t : State}

/-! ## The port's operations leave the part state -/

@[simp] theorem Port.askRead_part (who : Requester) (addr : BitVec 64) (len : Nat) (p : Port) :
    (p.askRead who addr len).part = p.part := by
  unfold Port.askRead; split <;> rfl

@[simp] theorem Port.askRow_part (addr : BitVec 64) (len : Nat) (p : Port) : (p.askRow addr len).part = p.part := by
  unfold Port.askRow
  induction readPieces len generalizing p with
  | nil => rfl
  | cons c l ih => simp [ih]

@[simp] theorem Port.setEvents_part (cause mask : Causes) (p : Port) : (p.setEvents cause mask).part = p.part := by
  simp only [Port.setEvents, Port.askMessage]
  split_ifs <;> rfl

@[simp] theorem State.raise_part (c : Causes) (s : State) : (s.raise c).port.part = s.port.part :=
  Port.setEvents_part _ _ _

/-! ## Entries and what waits -/

@[simp] theorem State.countEntry_part (e : Entry) (s : State) : (s.countEntry e).port.part = s.port.part := by
  unfold State.countEntry
  repeat' split
  all_goals simp

@[simp] theorem State.issueEntry_part (s : State) : s.issueEntry.port.part = s.port.part := by
  unfold State.issueEntry; split <;> simp

@[simp] theorem State.issueSnapshot_part (addr : BitVec 64) (bytes : List Byte) (s : State) :
    (s.issueSnapshot addr bytes).port.part = s.port.part := by
  simp only [State.issueSnapshot]
  repeat' split
  all_goals simp

@[simp] theorem State.issueAsk_part (a : LinkAsk) (s : State) : (s.issueAsk a).port.part = s.port.part := by
  cases a with
  | read who addr len => rfl
  | entry => simp only [State.issueAsk]; split <;> simp
  | snapshot addr bytes => exact State.issueSnapshot_part addr bytes s
  | message => simp only [State.issueAsk]; split <;> rfl

@[simp] theorem State.issueAsks_part (l : List LinkAsk) (s : State) :
    (l.foldl State.issueAsk s).port.part = s.port.part := by
  induction l generalizing s with
  | nil => rfl
  | cons a l ih => simp [ih]

@[simp] theorem State.drainWaiting_part (s : State) : s.drainWaiting.port.part = s.port.part := by
  simp [State.drainWaiting]

@[simp] theorem State.admitOffer_port (p : Producer) (s : State) : (s.admitOffer p).port = s.port := by
  cases p <;> simp

/-! ## The raster unit -/

@[simp] theorem State.opGoesOn_part (op : Op) (s : State) : (s.opGoesOn op).port.part = s.port.part := by
  unfold State.opGoesOn
  split
  · simp
  · split
    · simp [State.askSourceRow]
    all_goals rfl

@[simp] theorem State.writeRow_part (op : Op) (s : State) : (s.writeRow op).port.part = s.port.part :=
  State.opGoesOn_part _ _

@[simp] theorem State.sourceFinishes_part (off : Nat) (res : Option (List Byte)) (op : Op) (s : State) :
    (s.sourceFinishes off res op).port.part = s.port.part := by
  simp only [State.sourceFinishes]
  repeat' split
  all_goals simp

@[simp] theorem State.sourceReadEnds_part (off : Nat) (res : Option (List Byte)) (s : State) :
    (s.sourceReadEnds off res).port.part = s.port.part := by
  unfold State.sourceReadEnds
  repeat' split
  all_goals simp

@[simp] theorem State.beginOp_part (h : Hand) (kind : OpKind) (slot : SlotId) (area : Area) (s : State) :
    (s.beginOp h kind slot area).port.part = s.port.part := by
  simp [State.beginOp]

/-! ## Notify writes -/

@[simp] theorem State.notify_part (queue : BitVec 8) (index : BitVec 16) (s : State) :
    (s.notify queue index).port.part = s.port.part := by
  simp only [State.notify, State.rejectNotify]
  repeat' split
  all_goals simp

/-! ## Moves of the part -/

/-- From `s` to `t` the part moves along R160's table, or stays. -/
def State.PartMoves (s t : State) : Prop := partMove s.port.part t.port.part = true

theorem State.PartMoves.stay (h : t.port.part = s.port.part) : s.PartMoves t := by
  unfold State.PartMoves
  rw [h]
  cases s.port.part <;> rfl

theorem State.PartMoves.refl (s : State) : s.PartMoves s := .stay rfl

theorem State.PartMoves.of_port (h : t.port = s.port) : s.PartMoves t := .stay (congrArg Port.part h)

/-- Every part state returns to DETACHED in one way or another (R160). -/
theorem State.PartMoves.detached (h : t.port.part = .detached) : s.PartMoves t := by
  unfold State.PartMoves
  rw [h]
  cases s.port.part <;> rfl

theorem State.PartMoves.along {a b : PartState} (hs : s.port.part = a) (ht : t.port.part = b) (h : partMove a b = true) :
    s.PartMoves t := by
  unfold State.PartMoves
  rw [hs, ht, h]

/-! ## Attach and detach -/

@[simp] theorem State.attachFails_part (code : AttachCode) (s : State) : (s.attachFails code).port.part = .detached :=
  Port.setEvents_part _ _ _

theorem State.attachEnds_partMoves (hpart : s.port.part = .attaching) (res : Option (List Byte)) :
    s.PartMoves (s.attachEnds res) := by
  unfold State.attachEnds
  split
  · exact .detached (by simp)
  · split
    · exact .detached (by simp)
    · split
      · exact .along hpart (s.attachSucceeds_port _).1 rfl
      · exact .detached (by simp)

theorem State.attachOne_partMoves (s : State) : s.PartMoves s.attachOne := by
  unfold State.attachOne
  split
  case h_1 hpart =>
    dsimp only
    split
    · exact .along hpart (Port.askRead_part _ _ _ _) rfl
    · exact .detached (by simp)
  all_goals exact .refl s

theorem State.attachZero_partMoves (s : State) : s.PartMoves s.attachZero := by
  unfold State.attachZero
  split
  case h_2 =>
    split
    · exact .refl s
    · split
      · exact .detached (by simp)
      · exact .stay rfl
  case h_3 hpart => exact .along hpart rfl rfl
  case h_5 hpart => exact .along hpart rfl rfl
  all_goals exact .refl s

theorem State.writeControl_partMoves (value : BitVec 32) (s : State) : s.PartMoves (s.writeControl value) := by
  unfold State.writeControl
  split
  · exact .detached rfl
  · split
    · exact s.attachOne_partMoves
    · exact s.attachZero_partMoves

theorem State.writeRegister_partMoves (offset : BitVec 12) (size : Nat) (value : BitVec 32) (s : State) :
    s.PartMoves (s.writeRegister offset size value) := by
  unfold State.writeRegister
  split
  · exact .refl s
  · split
    · exact s.writeControl_partMoves value
    · exact .stay rfl
    · exact .stay rfl
    · exact .stay (by simp)
    · exact .stay (Port.setEvents_part _ _ _)
    · exact .stay (Port.setEvents_part _ _ _)
    · exact .refl s

/-! ## The end of a host read -/

/-- An admin fetch that fails in ATTACHED makes the part FATAL (R171). -/
theorem State.adminReadEnds_partMoves (res : Option (List Byte)) (s : State) : s.PartMoves (s.adminReadEnds res) := by
  unfold State.adminReadEnds
  split
  case h_1 =>
    split
    case h_1 hpart =>
      split
      · exact .along hpart (s.becomeFatal_port _).1 rfl
      · exact .of_port (by simp)
    all_goals exact .refl s
  all_goals exact .refl s

theorem State.readEnds_partMoves (r : ReadReq) (res : Option (List Byte)) (s : State) : s.PartMoves (s.readEnds r res) := by
  show (s.withoutRead r).PartMoves (s.readEnds r res)
  unfold State.readEnds
  split
  · split
    · next hpart => exact State.attachEnds_partMoves (s := s.withoutRead r) hpart res
    · exact .refl _
  · exact (s.withoutRead r).adminReadEnds_partMoves res
  · exact .of_port (by simp [State.withoutRead])
  · exact .stay (by simp [State.withoutRead])

theorem State.takeCompletion_partMoves (id offset : Nat) (data : List Byte) (good : Bool) (s : State) :
    s.PartMoves (s.takeCompletion id offset data good) := by
  simp only [State.takeCompletion]
  split
  · exact .refl s
  · split
    · exact .refl s
    · split
      · split
        · exact s.readEnds_partMoves _ _
        · exact .stay rfl
      · exact s.readEnds_partMoves _ _

/-! ## Admin commands -/

/-- A command moves the part in no way, if its effect does not (R30). -/
theorem State.runCommand_part {a : AdminCmd} {c : Command} {taken : Stream → Lane → Bool} {fieldsOk : Bool}
    {effect : StreamId → State → State} (h : ∀ i, (effect i s).port.part = s.port.part) :
    (s.runCommand a c taken fieldsOk effect).port.part = s.port.part :=
  State.runCommand_keeps (P := fun t => t.port.part = s.port.part) (fun _ _ => by simp) fun i _ => h i

/-- What a command's row leaves of the part state, its run does too (R29). -/
theorem State.commandRow_part {row : List Byte → Bool} {run : AdminCmd → State}
    (hrun : ∀ a, (run a).port.part = s.port.part) (h : s.commandRow row run = .next t) : t.port.part = s.port.part := by
  unfold State.commandRow at h
  split at h <;> cases h
  · rfl
  · exact hrun _

/-- No row of an admin command moves the part (R29). -/
theorem exec_adminRow_part {c : Instr} (hc : c ∈ adminRows) (h : exec c s = .next t) : t.port.part = s.port.part := by
  simp only [adminRows, List.mem_cons, List.not_mem_nil, or_false] at hc
  rcases hc with rfl | rfl | rfl | rfl | rfl | rfl | rfl | rfl | rfl | rfl | rfl
  all_goals refine State.commandRow_part (fun a => ?_) h
  -- UNKNOWN_COMMAND has no checks of its own
  · simp
  all_goals
    refine State.runCommand_part fun i => ?_
    repeat' split
    all_goals simp

/-! ## Hand-overs -/

theorem State.handOver_part {k : RecKind} {effect : Hand → State → State}
    (he : ∀ h, (effect h s).port.part = s.port.part) : (s.handOver k effect).port.part = s.port.part := by
  unfold State.handOver
  split
  · rfl
  · split
    · simp
    · split
      · simp
      · exact he _

theorem State.onOpen_part {h : Hand} {effect : SlotId → State → State}
    (he : ∀ k, (effect k s).port.part = s.port.part) : (s.onOpen h effect).port.part = s.port.part := by
  unfold State.onOpen
  split
  · simp
  · exact he _

/-- No hand-over of a record moves the part (R65). -/
theorem exec_kindRow_part (k : RecKind) (h : exec (kindRow k) s = .next t) : t.port.part = s.port.part := by
  cases k with
  | openBand =>
    cases h
    refine State.handOver_part fun hand => ?_
    dsimp only
    repeat' split
    all_goals simp
  | fillRect => cases h; exact State.handOver_part fun _ => State.onOpen_part fun _ => State.beginOp_part _ _ _ _ _
  | place => cases h; exact State.handOver_part fun _ => State.onOpen_part fun _ => State.beginOp_part _ _ _ _ _
  | copyRect =>
    cases h
    refine State.handOver_part fun hand => State.onOpen_part fun k => ?_
    split <;> simp
  | closeBand => cases h; exact State.handOver_part fun _ => State.onOpen_part fun _ => by simp
  | discardBand => cases h; exact State.handOver_part fun _ => State.onOpen_part fun _ => by simp
  | mark =>
    cases h
    refine State.handOver_part fun hand => ?_
    dsimp only
    split <;> simp

theorem execUnknownRecordKind_port (h : execUnknownRecordKind s = .next t) : t.port = s.port := by
  unfold execUnknownRecordKind at h
  split at h <;> cases h
  · rfl
  · simp

theorem execRingFault_port (h : execRingFault s = .next t) : t.port = s.port := by
  unfold execRingFault at h
  split at h
  · cases h; rfl
  · split at h <;> cases h
    · simp
    all_goals rfl

/-! ## The part's own steps -/

theorem execRecordFetch_part (h : execRecordFetch s = .next t) : t.port.part = s.port.part := by
  unfold execRecordFetch at h
  split at h
  · cases h; rfl
  · split at h <;> cases h
    · rfl
    · simp

theorem execAdminFetch_part (h : execAdminFetch s = .next t) : t.port.part = s.port.part := by
  unfold execAdminFetch at h
  split at h
  · split at h <;> cases h
    · simp
    · rfl
  · cases h; rfl

theorem execRowWrite_part (h : execRowWrite s = .next t) : t.port.part = s.port.part := by
  unfold execRowWrite at h
  split at h <;> cases h
  · split
    · simp
    · rfl
  all_goals rfl

theorem execEntryAdmission_port (h : execEntryAdmission s = .next t) : t.port = s.port := by
  unfold execEntryAdmission at h
  split at h
  · split at h <;> cases h
    · rfl
    · next p _ => cases p <;> simp [State.offerOn]
  · cases h; rfl

theorem execCompletionEntryWrite_part (h : execCompletionEntryWrite s = .next t) : t.port.part = s.port.part := by
  unfold execCompletionEntryWrite at h
  split at h <;> cases h
  · split <;> simp
  · rfl

theorem execCoalesceTimerExpiry_part (h : execCoalesceTimerExpiry s = .next t) : t.port.part = s.port.part := by
  unfold execCoalesceTimerExpiry at h
  split at h <;> cases h
  · rfl
  · split <;> simp

theorem execDrainAutoClose_port {i : StreamId} (h : execDrainAutoClose i s = .next t) : t.port = s.port := by
  unfold execDrainAutoClose at h
  split at h <;> cases h
  · simp
  · rfl

theorem execAbortStep_port {i : StreamId} (h : execAbortStep i s = .next t) : t.port = s.port := by
  unfold execAbortStep at h
  split at h
  · split at h <;> cases h
    case h_1 => split <;> simp
    case h_2 => split <;> simp
    case h_3 => split <;> simp
    case h_4 => split <;> simp
    all_goals rfl
  · cases h; rfl

/-! ## The inversion of a row -/

/-- Every row moves the part along R160's table, or leaves it. -/
theorem exec_partMoves {c : Instr} (h : exec c s = .next t) : s.PartMoves t := by
  have admin (hc : c ∈ adminRows) : s.PartMoves t := .stay (exec_adminRow_part hc h)
  have kind (k : RecKind) (hc : kindRow k = c) : s.PartMoves t := .stay (exec_kindRow_part k (hc ▸ h))
  have lane {i : StreamId} (hc : laneOf c = some i) : s.PartMoves t := .of_port (exec_onlyLane hc h).port
  cases c with
  | powerOn => cases h; exact .detached rfl
  | fundamentalReset => cases h; exact .detached rfl
  | functionReset attach => cases h; exact s.writeControl_partMoves _
  | attach => cases h; exact s.writeControl_partMoves _
  | attachCancel => cases h; exact s.writeControl_partMoves _
  | detach => cases h; exact s.writeControl_partMoves _
  | detachEnd =>
    simp only [exec, execDetachEnd] at h
    split at h <;> cases h
    · exact .detached rfl
    · exact .refl s
  | notifyAdminTail index => cases h; exact .stay (by simp)
  | notifyStreamTail stream index => cases h; exact .stay (by simp)
  | notifyRelease index => cases h; exact .stay (by simp)
  | notifyUnusedQueue queue index => cases h; exact .stay (by simp)
  | eventCauseWrite value => cases h; exact .stay (Port.setEvents_part _ _ _)
  | eventMaskWrite value => cases h; exact .stay (Port.setEvents_part _ _ _)
  | registerWrite offset size value => cases h; exact s.writeRegister_partMoves _ _ _
  | configBusMasterEnable busMaster messages =>
    cases h
    refine .stay ?_
    split
    · simp
    · split <;> rfl
  | configBusMasterDisable busMaster messages => cases h; exact .stay rfl
  | linkLoss =>
    cases h
    split
    · next hpart => exact .along hpart (State.becomeFatal_port _ _).1 rfl
    · exact .stay rfl
  | linkUp => cases h; refine .stay ?_; split <;> simp
  | readCompletion request offset data good => cases h; exact s.takeCompletion_partMoves _ _ _ _
  | readLimitExpiry request =>
    simp only [exec, execReadLimitExpiry] at h
    split at h <;> cases h
    · exact s.readEnds_partMoves _ _
    · exact .refl s
  | adminFetch => exact .stay (execAdminFetch_part h)
  | unknownCommand => exact admin (by decide)
  | configureStream => exact admin (by decide)
  | startStream => exact admin (by decide)
  | stopStream => exact admin (by decide)
  | abortStream => exact admin (by decide)
  | releaseStream => exact admin (by decide)
  | clearStreamResume => exact admin (by decide)
  | clearStreamSkipBand => exact admin (by decide)
  | clearLaneResend => exact admin (by decide)
  | clearLaneSkip => exact admin (by decide)
  | queryStream => exact admin (by decide)
  | recordFetch => exact .stay (execRecordFetch_part h)
  | ringFault => exact .of_port (execRingFault_port h)
  | unknownRecordKind => exact .of_port (execUnknownRecordKind_port h)
  | openBand => exact kind .openBand rfl
  | fillRect => exact kind .fillRect rfl
  | place => exact kind .place rfl
  | copyRect => exact kind .copyRect rfl
  | closeBand => exact kind .closeBand rfl
  | discardBand => exact kind .discardBand rfl
  | mark => exact kind .mark rfl
  | rowWrite => exact .stay (execRowWrite_part h)
  | entryAdmission => exact .of_port (execEntryAdmission_port h)
  | completionEntryWrite => exact .stay (execCompletionEntryWrite_part h)
  | coalesceTimerExpiry => exact .stay (execCoalesceTimerExpiry_part h)
  | drainAutoClose stream => exact .of_port (execDrainAutoClose_port h)
  | drainEnd stream => cases h; exact .of_port (by simp)
  | abortStep stream => exact .of_port (execAbortStep_port h)
  | syncSend i => exact lane rfl
  | bandStart i => exact lane rfl
  | frameSent i => exact lane rfl
  | accept i seq => exact lane rfl
  | wait i seq => exact lane rfl
  | refuse i seq reason => exact lane rfl
  | credit i grant => exact lane rfl
  | badFrame i bytes => exact lane rfl
  | replyTimerExpiry i => exact lane rfl
  | waitTimerExpiry i => exact lane rfl
  | starveTimerExpiry i => exact lane rfl

/-- Settles O9: the front command's row moves the part by the table; an idle part stays. -/
theorem partMovesByTheTable : Obligations.PartMovesByTheTable := by
  intro s t h
  unfold step at h
  split at h
  · cases h; exact State.PartMoves.refl s
  · have moves := exec_partMoves h
    exact moves

end Sys2Proof.Machine
end

section
/-!
What waits for the link, and its issue in order once requests can be issued again (R168, R170, R172, log 8).
-/

namespace Sys2Proof.Machine

variable {s t u : State}

/-! ## The two passes of the issue -/

/-- The state that the first pass starts from: a message called for meanwhile waits behind what is issued (R170). -/
def State.closed (s : State) : State := { s with port := { s.port with waiting := [], busMaster := false } }

/-- The second pass: bus mastering is on, and what was asked for during the first is issued (R168, R170). -/
def State.reopened (s : State) : State :=
  s.port.waiting.foldl State.issueAsk { s with port := { s.port with waiting := [], busMaster := true } }

theorem State.drainWaiting_eq (s : State) : s.drainWaiting = (s.port.waiting.foldl State.issueAsk s.closed).reopened := rfl

/-- With nothing asked for meanwhile the second pass turns bus mastering on. -/
theorem State.reopened_of_nil (h : s.port.waiting = []) :
    s.reopened = { s with port := { s.port with waiting := [], busMaster := true } } := by
  simp [State.reopened, h]

/-- The rows after which requests can be issued, as the statement gives them, issue what waited (R168, R172). -/
theorem exec_issues {c : Instr} {b m : Bool} {p : Port}
    (h : (c = .configBusMasterEnable b m ∧ ((s.port.busMaster || b) && s.port.linkUp) = true ∧
        p = { s.port with busMaster := true, messages := s.port.messages || m, waiting := [] }) ∨
      (c = .linkUp ∧ s.port.busMaster = true ∧ p = { s.port with linkUp := true, waiting := [] })) :
    exec c s = .next (s.port.waiting.foldl State.issueAsk ({ s with port := p } : State).closed).reopened ∧
      p.busMaster = true ∧ p.linkUp = true ∧ p.waiting = [] ∧ p.part = s.port.part ∧ p.nextId = s.port.nextId ∧
      p.sent = s.port.sent := by
  rcases h with ⟨rfl, hopen, rfl⟩ | ⟨rfl, hbus, rfl⟩
  · exact ⟨congrArg Host.Outcome.next (if_pos hopen), rfl, (Bool.and_eq_true_iff.1 hopen).2, rfl, rfl, rfl, rfl⟩
  · exact ⟨congrArg Host.Outcome.next (if_pos (by simp [Port.canIssue, hbus])), hbus, rfl, rfl, rfl, rfl, rfl⟩

/-! ## Reads -/

/-- A read of the op in flight (R83). -/
def Requester.isRaster : Requester → Bool
  | .raster _ => true
  | .attach => false
  | .admin => false
  | .fetch => false

/-- The op in flight with `n` more of its requests outstanding (R83, R168). -/
def RasterUnit.issuedMore (n : Nat) : RasterUnit → RasterUnit
  | .executing op => .executing { op with readsOut := op.readsOut + n }
  | .free => .free
  | .holding i e => .holding i e
  | .posting op e => .posting op e

theorem RasterUnit.issued_eq (who : Requester) (r : RasterUnit) : r.issued who = r.issuedMore who.isRaster.toNat := by
  cases who <;> cases r <;> rfl

theorem RasterUnit.issuedMore_add (m n : Nat) (r : RasterUnit) : (r.issuedMore m).issuedMore n = r.issuedMore (m + n) := by
  cases r <;> simp [RasterUnit.issuedMore, Nat.add_assoc]

theorem RasterUnit.issuedMore_zero (r : RasterUnit) : r.issuedMore 0 = r := by cases r <;> rfl

/-- Waiting reads are issued in order, those of the op in flight counted as its own (R168). -/
theorem State.issueReads_eq (l : List (Requester × BitVec 64 × Nat)) (s : State) :
    (l.map fun x => LinkAsk.read x.1 x.2.1 x.2.2).foldl State.issueAsk s = { s with
      port := l.foldl (fun q x => q.issueRead x.1 x.2.1 x.2.2) s.port
      raster := s.raster.issuedMore (l.filter fun x => x.1.isRaster).length } := by
  induction l generalizing s with
  | nil => simp [RasterUnit.issuedMore_zero]
  | cons x l ih =>
    have count : ((x :: l).filter fun x => x.1.isRaster).length =
        x.1.isRaster.toNat + (l.filter fun x => x.1.isRaster).length := by
      cases hx : x.1.isRaster <;> simp [hx, Nat.add_comm]
    rw [List.map_cons, List.foldl_cons, ih, count, ← RasterUnit.issuedMore_add, ← RasterUnit.issued_eq]
    rfl

/-- Issuing reads looks neither at bus mastering nor at what waits. -/
theorem Port.issueReads_closed (l : List (Requester × BitVec 64 × Nat)) (p : Port) (w : List LinkAsk) (b : Bool) :
    l.foldl (fun q x => q.issueRead x.1 x.2.1 x.2.2) { p with waiting := w, busMaster := b } =
      { l.foldl (fun q x => q.issueRead x.1 x.2.1 x.2.2) p with waiting := w, busMaster := b } := by
  induction l generalizing p with
  | nil => rfl
  | cons x l ih => exact ih (p.issueRead x.1 x.2.1 x.2.2)

theorem Port.issueReads_keeps (l : List (Requester × BitVec 64 × Nat)) (p : Port) :
    (l.foldl (fun q x => q.issueRead x.1 x.2.1 x.2.2) p).waiting = p.waiting ∧
      (l.foldl (fun q x => q.issueRead x.1 x.2.1 x.2.2) p).busMaster = p.busMaster := by
  induction l generalizing p with
  | nil => exact ⟨rfl, rfl⟩
  | cons x l ih => exact ih (p.issueRead x.1 x.2.1 x.2.2)

/-- When only reads waited, they are all that is issued (R168). -/
theorem State.reads_reopened (hbus : u.port.busMaster = true) (hwait : u.port.waiting = [])
    (l : List (Requester × BitVec 64 × Nat)) :
    ((l.map fun x => LinkAsk.read x.1 x.2.1 x.2.2).foldl State.issueAsk u.closed).reopened = { u with
      port := l.foldl (fun q x => q.issueRead x.1 x.2.1 x.2.2) u.port
      raster := u.raster.issuedMore (l.filter fun x => x.1.isRaster).length } := by
  obtain ⟨waiting, bus⟩ := Port.issueReads_keeps l u.port
  have port : { l.foldl (fun q x => q.issueRead x.1 x.2.1 x.2.2) u.port with waiting := [], busMaster := true } =
      l.foldl (fun q x => q.issueRead x.1 x.2.1 x.2.2) u.port := by
    rw [← hwait, ← waiting, ← hbus, ← bus]
  rw [State.issueReads_eq, State.reopened_of_nil]
  · simp only [State.closed, Port.issueReads_closed, port]
  · simp only [State.closed, Port.issueReads_closed]

/-! ## What one issue puts on the link -/

/-- With bus mastering off, setting causes sends nothing, and leaves at most a message waiting (R156, R170). -/
theorem Port.raise_closed (c : Causes) {p : Port} (h : p.busMaster = false) :
    (p.raise c).sent = p.sent ∧ (p.raise c).nextId = p.nextId ∧ (p.raise c).busMaster = false ∧
      (p.raise c).messages = p.messages ∧ ((p.raise c).waiting = p.waiting ∨ (p.raise c).waiting = p.waiting ++ [.message]) := by
  simp only [Port.raise, Port.setEvents, Port.askMessage]
  split_ifs <;> simp_all

/-- So does the count of an entry (R153). -/
theorem State.countEntry_closed (e : Entry) (h : s.port.busMaster = false) :
    (s.countEntry e).port.sent = s.port.sent ∧ (s.countEntry e).port.nextId = s.port.nextId ∧
      (s.countEntry e).port.busMaster = false ∧ (s.countEntry e).port.messages = s.port.messages ∧
      ((s.countEntry e).port.waiting = s.port.waiting ∨ (s.countEntry e).port.waiting = s.port.waiting ++ [.message]) := by
  unfold State.countEntry
  split
  · exact ⟨rfl, rfl, h, rfl, .inl rfl⟩
  · split
    · exact ⟨rfl, rfl, h, rfl, .inl rfl⟩
    · split
      · exact Port.raise_closed _ h
      · exact ⟨rfl, rfl, h, rfl, .inl rfl⟩

/-- The number of the next read request after an ask is issued (R168, log 7). -/
def LinkAsk.nextId (n : Nat) : LinkAsk → Nat
  | .read _ _ _ => n + 1
  | .entry => n
  | .snapshot _ _ => n
  | .message => n

theorem State.putsAll_cons (s : State) (n : Nat) (a : LinkAsk) (l : List LinkAsk) :
    s.putsAll n (a :: l) = s.puts n a ++ s.putsAll (a.nextId n) l := by
  cases a <;> rfl

/-- What an ask of the first pass does to the port: what it puts on the link, and the message an entry may call for (R168,
R170). -/
structure State.Issued (a : LinkAsk) (s t : State) : Prop where
  sent : t.port.sent = s.port.sent ++ s.puts s.port.nextId a
  nextId : t.port.nextId = a.nextId s.port.nextId
  busMaster : t.port.busMaster = false
  messages : t.port.messages = s.port.messages
  part : t.port.part = s.port.part
  waiting : t.port.waiting = s.port.waiting ∨ (a = .entry ∧ t.port.waiting = s.port.waiting ++ [.message])

theorem State.issueEntry_issued (h : s.port.busMaster = false) (hpart : s.port.part = .attached) :
    State.Issued .entry s s.issueEntry := by
  cases hqueue : s.ring.queue with
  | nil =>
    have same : s.issueEntry = s := by simp [State.issueEntry, hqueue]
    rw [same]
    exact ⟨by simp [State.puts, hqueue], rfl, h, rfl, rfl, .inl rfl⟩
  | cons e q =>
    cases hcomp : s.ring.comp with
    | none =>
      have same : s.issueEntry = s := by simp [State.issueEntry, hqueue, hcomp]
      rw [same]
      exact ⟨by simp [State.puts, hqueue, hcomp], rfl, h, rfl, rfl, .inl rfl⟩
    | some c =>
      have part := s.issueEntry_part
      rw [State.issueEntry_eq hqueue hcomp] at part ⊢
      obtain ⟨sent, nextId, bus, messages, waiting⟩ := State.countEntry_closed (s := { s with
        ring := { s.ring with
          queue := q
          comp := some { c with
            write := (c.write + 1) % c.size, phase := if (c.write + 1) % c.size = 0 then !c.phase else c.phase } }
        port := { s.port with
          sent := s.port.sent ++ [.write (c.base + BitVec.ofNat 64 (16 * c.write)) (entryBytes c.phase e)] } }) e h
      refine ⟨?_, nextId, bus, messages, part, waiting.imp id fun h => ⟨rfl, h⟩⟩
      rw [sent]
      simp [State.puts, hqueue, hcomp, hpart]

/-- The snapshot's write; its completion, which may be admitted at once, leaves the port alone (R52, R151). -/
theorem State.issueSnapshot_port (addr : BitVec 64) (bytes : List Byte) (s : State) :
    (s.issueSnapshot addr bytes).port = { s.port with sent := s.port.sent ++ [.write addr bytes] } := by
  simp only [State.issueSnapshot]
  split
  · split
    · simp
    · rfl
  · rfl

theorem State.issueAsk_issued (a : LinkAsk) (h : s.port.busMaster = false) : State.Issued a s (s.issueAsk a) := by
  cases a with
  | read who addr len => exact ⟨rfl, rfl, h, rfl, rfl, .inl rfl⟩
  | entry =>
    simp only [State.issueAsk]
    split
    · next hpart => exact State.issueEntry_issued h hpart
    · next hpart =>
      refine ⟨?_, rfl, h, rfl, rfl, .inl rfl⟩
      simp only [State.puts, if_neg hpart]
      split <;> simp
  | snapshot addr bytes =>
    have port := s.issueSnapshot_port addr bytes
    simp only [State.issueAsk]
    exact ⟨by rw [port]; rfl, by rw [port]; rfl, by rw [port]; exact h, by rw [port], by rw [port], .inl (by rw [port])⟩
  | message =>
    simp only [State.issueAsk]
    split
    · next hs => exact ⟨by simp [State.puts, hs], rfl, h, rfl, rfl, .inl rfl⟩
    · next hs => exact ⟨by simp [State.puts, hs], rfl, h, rfl, rfl, .inl rfl⟩

/-! ## What a list puts on the link -/

/-- `t` shows what waits in `l` the same part state and enables as `s`, and the same entry and ring if an entry's write is in
it. -/
structure State.SameLink (l : List LinkAsk) (s t : State) : Prop where
  part : t.port.part = s.port.part
  messages : t.port.messages = s.port.messages
  comp : .entry ∈ l → t.ring.comp = s.ring.comp
  head : .entry ∈ l → t.ring.queue.head? = s.ring.queue.head?

theorem State.SameLink.puts {a : LinkAsk} {l : List LinkAsk} (h : State.SameLink l s t) (ha : a ∈ l) (n : Nat) :
    t.puts n a = s.puts n a := by
  cases a with
  | read who addr len => rfl
  | snapshot addr bytes => rfl
  | message => simp only [State.puts, h.part, h.messages]
  | entry =>
    have head := h.head ha
    simp only [State.puts, h.comp ha, h.part]
    cases hs : s.ring.queue with
    | nil =>
      have ht : t.ring.queue = [] := List.head?_eq_none_iff.1 (by rw [head, hs]; rfl)
      rw [ht]
    | cons e q =>
      obtain ⟨q', ht⟩ := List.head?_eq_some_iff.1 (show t.ring.queue.head? = some e by rw [head, hs]; rfl)
      rw [ht]
      cases s.ring.comp <;> rfl

theorem State.SameLink.putsAll {l : List LinkAsk} (h : State.SameLink l s t) (n : Nat) : t.putsAll n l = s.putsAll n l := by
  induction l generalizing n with
  | nil => rfl
  | cons a l ih =>
    have tail : State.SameLink l s t := ⟨h.part, h.messages, fun hl => h.comp (.tail _ hl), fun hl => h.head (.tail _ hl)⟩
    rw [State.putsAll_cons, State.putsAll_cons, h.puts (.head _), ih tail]

/-- An offer that is admitted joins the queue's tail (R151). -/
theorem State.admitAsMade_head (p : Producer) (s : State) (h : s.ring.queue ≠ []) :
    (s.admitAsMade p).ring.queue.head? = s.ring.queue.head? := by
  rcases State.admitAsMade_cases p s with e | ⟨_, _, _, _, e⟩
  · rw [e]
  · rw [e, State.admit_queue]
    exact List.head?_append_of_ne_nil _ h

/-- A snapshot's write, with the completion it makes due, leaves the completion ring and the queue's head (R52, R151). -/
theorem State.issueSnapshot_head (addr : BitVec 64) (bytes : List Byte) (s : State) :
    (s.issueSnapshot addr bytes).ring.comp = s.ring.comp ∧
      (s.ring.queue ≠ [] → (s.issueSnapshot addr bytes).ring.queue.head? = s.ring.queue.head?) := by
  simp only [State.issueSnapshot]
  split
  · split
    · exact ⟨(State.admitAsMade_rings _ _).2, fun hq => State.admitAsMade_head _ _ hq⟩
    · exact ⟨rfl, fun _ => rfl⟩
  · exact ⟨rfl, fun _ => rfl⟩

/-- No issue but that of an entry moves the completion ring or the queue's head (R147). -/
theorem State.issueAsk_sameLink {a : LinkAsk} {l : List LinkAsk} (hbus : s.port.busMaster = false)
    (ha : a = .entry → .entry ∉ l) (hq : .entry ∈ l → s.ring.queue ≠ []) : State.SameLink l s (s.issueAsk a) := by
  have issued := State.issueAsk_issued a hbus
  cases a with
  | read who addr len => exact ⟨issued.part, issued.messages, fun _ => rfl, fun _ => rfl⟩
  | entry => exact ⟨issued.part, issued.messages, fun hl => absurd hl (ha rfl), fun hl => absurd hl (ha rfl)⟩
  | snapshot addr bytes =>
    obtain ⟨comp, head⟩ := s.issueSnapshot_head addr bytes
    exact ⟨issued.part, issued.messages, fun _ => comp, fun hl => head (hq hl)⟩
  | message =>
    have ring : (s.issueAsk .message).ring = s.ring := by simp only [State.issueAsk]; split <;> rfl
    exact ⟨issued.part, issued.messages, fun _ => by rw [ring], fun _ => by rw [ring]⟩

/-- What the first pass puts on the link, and the message that its entry may leave for the second (R168, R170). -/
theorem State.issueAsks_port {l : List LinkAsk} {s : State} (hbus : s.port.busMaster = false)
    (hone : l.count .entry ≤ 1) (hq : .entry ∈ l → s.ring.queue ≠ []) : ∃ late : List LinkAsk,
      (late = [] ∨ late = [.message]) ∧ (.entry ∉ l → late = []) ∧
      (l.foldl State.issueAsk s).port.waiting = s.port.waiting ++ late ∧
      (l.foldl State.issueAsk s).port.sent = s.port.sent ++ s.putsAll s.port.nextId l := by
  induction l generalizing s with
  | nil => exact ⟨[], .inl rfl, fun _ => rfl, (List.append_nil _).symm, (List.append_nil _).symm⟩
  | cons a l ih =>
    have only : a = .entry → .entry ∉ l := by
      rintro rfl hl
      have := List.count_pos_iff.2 hl
      simp only [List.count_cons_self] at hone
      omega
    have issued := State.issueAsk_issued a hbus
    have same : State.SameLink l s (s.issueAsk a) := State.issueAsk_sameLink hbus only fun hl => hq (.tail _ hl)
    have queue (hl : .entry ∈ l) : (s.issueAsk a).ring.queue ≠ [] := fun e => by
      have head := same.head hl
      rw [e, eq_comm, List.head?_nil, List.head?_eq_none_iff] at head
      exact hq (.tail _ hl) head
    obtain ⟨late, hlate, hnone, waiting, sent⟩ :=
      ih issued.busMaster ((List.count_le_count_cons ..).trans hone) queue
    have sentAll : ((a :: l).foldl State.issueAsk s).port.sent = s.port.sent ++ s.putsAll s.port.nextId (a :: l) := by
      rw [List.foldl_cons, sent, issued.sent, issued.nextId, same.putsAll, State.putsAll_cons, List.append_assoc]
    rcases issued.waiting with waits | ⟨rfl, calls⟩
    · refine ⟨late, hlate, fun h => hnone fun hl => h (.tail _ hl), ?_, sentAll⟩
      rw [List.foldl_cons, waiting, waits]
    · refine ⟨[.message], .inr rfl, fun h => absurd (.head _) h, ?_, sentAll⟩
      rw [List.foldl_cons, waiting, calls, hnone (only rfl), List.append_nil]

/-! ## One entry, and one snapshot -/

section Single

variable (hbus : u.port.busMaster = true) (hwait : u.port.waiting = [])

include hbus hwait

theorem State.closed_reopened : u.closed.reopened = u := by
  rw [State.reopened_of_nil rfl]
  simp only [State.closed, ← hwait, ← hbus]

/-- A message called for with bus mastering off, and then issued, is the message sent at once (R156, R170). -/
theorem State.raise_reopened (hlink : u.port.linkUp = true) (hpart : u.port.part = .attached) (c : Causes) :
    (u.closed.raise c).reopened = u.raise c := by
  by_cases news : u.port.cause.meets u.port.mask = false ∧ (u.port.cause.union c).meets u.port.mask = true
  · cases hm : u.port.messages with
    | false =>
      simp [State.raise, Port.raise, Port.setEvents, Port.askMessage, State.closed, State.reopened, news, hm, hpart, hlink,
        hbus, hwait]
    | true =>
      simp [State.raise, Port.raise, Port.setEvents, Port.askMessage, State.closed, State.reopened, State.issueAsk, news, hm,
        hpart, hlink, hbus, hwait]
  · simp [State.raise, Port.raise, Port.setEvents, State.closed, State.reopened, news, hbus, hwait]

/-- So for the message that the count of an entry calls for (R153). -/
theorem State.countEntry_reopened (hlink : u.port.linkUp = true) (hpart : u.port.part = .attached) (e : Entry) :
    (u.closed.countEntry e).reopened = u.countEntry e := by
  have coalesce : u.closed.ring.coalesce = u.ring.coalesce := rfl
  have cause : u.closed.port.cause = u.port.cause := rfl
  simp only [State.countEntry, coalesce, cause]
  split
  · exact State.closed_reopened hbus hwait
  · next k _ =>
    split
    · exact State.closed_reopened hbus hwait
    · split
      · exact State.raise_reopened
          (u := { u with ring := { u.ring with coalesce := some { k with counter := 0, timer := false } } })
          hbus hwait hlink hpart _
      · exact State.closed_reopened (u := { u with ring := { u.ring with coalesce := some { k with
          counter := k.counter + 1, timer := k.timer || (k.counter == 0 && k.time != 0) } } }) hbus hwait

/-- An entry that waited alone is written as if asked for now (R147, R168). -/
theorem State.issueEntry_reopened (hlink : u.port.linkUp = true) (hpart : u.port.part = .attached) {e : Entry}
    {q : List Entry} {k : CompRing} (hqueue : u.ring.queue = e :: q) (hcomp : u.ring.comp = some k) :
    u.closed.issueEntry.reopened = u.issueEntry := by
  rw [State.issueEntry_eq hqueue hcomp, State.issueEntry_eq (s := u.closed) hqueue hcomp]
  exact State.countEntry_reopened (u := { u with
    ring := { u.ring with
      queue := q
      comp := some { k with
        write := (k.write + 1) % k.size, phase := if (k.write + 1) % k.size = 0 then !k.phase else k.phase } }
    port := { u.port with
      sent := u.port.sent ++ [.write (k.base + BitVec.ofNat 64 (16 * k.write)) (entryBytes k.phase e)] } })
    hbus hwait hlink hpart e

end Single

/-- Which offers stand, and which the arbiter may choose, is nothing of the port's (R150, R151). -/
theorem State.contenders_withPort (s : State) (q : Port) : State.contenders { s with port := q } = s.contenders := by
  have offer : State.offer { s with port := q } = s.offer := funext fun p => by cases p <;> rfl
  have admissible : State.admissible { s with port := q } = s.admissible := funext fun p => by cases p <;> rfl
  simp only [State.contenders, State.offers, offer, admissible]

/-- An admission looks at the part state alone of the port, and leaves the port (R151). -/
theorem State.admitAsMade_withPort (p : Producer) (s : State) {q : Port} (hq : q.part = s.port.part) :
    State.admitAsMade p { s with port := q } = { s.admitAsMade p with port := q } := by
  have admitted : State.admitOffer p { s with port := q } = { s.admitOffer p with port := q } := by
    have offer : State.offer { s with port := q } p = s.offer p := by cases p <;> rfl
    simp only [State.admitOffer, offer]
    cases s.offer p <;> cases p <;> rfl
  simp only [State.admitAsMade, State.contenders_withPort, hq, admitted]
  split <;> rfl

/-- A snapshot that waited alone is written, and its completion is offered (R52, R170). -/
theorem State.issueSnapshot_reopened (hbus : u.port.busMaster = true) (hwait : u.port.waiting = [])
    (hpart : u.port.part = .attached) {e : Entry} {x : Option StreamId} (hadmin : u.admin = .awaiting e x) (addr : BitVec 64)
    (bytes : List Byte) : (u.closed.issueSnapshot addr bytes).reopened = State.admitAsMade .admin
      { u with admin := .posting e x, port := { u.port with sent := u.port.sent ++ [.write addr bytes] } } := by
  have posted (b : Bool) : State.admitAsMade .admin { u with
      admin := .posting e x
      port := { u.port with waiting := [], busMaster := b, sent := u.port.sent ++ [.write addr bytes] } } =
      { State.admitAsMade .admin { u with admin := .posting e x } with
        port := { u.port with waiting := [], busMaster := b, sent := u.port.sent ++ [.write addr bytes] } } :=
    State.admitAsMade_withPort .admin { u with admin := .posting e x } rfl
  have issued : u.closed.issueSnapshot addr bytes = State.admitAsMade .admin { u with
      admin := .posting e x
      port := { u.port with waiting := [], busMaster := false, sent := u.port.sent ++ [.write addr bytes] } } := by
    have admin : u.closed.admin = .awaiting e x := hadmin
    simp only [State.issueSnapshot, admin]
    exact if_pos hpart
  have now := posted true
  simp only [← hwait, ← hbus] at now
  rw [issued, posted, State.reopened_of_nil rfl, now]
  simp only [← hwait, ← hbus]

/-- What the second pass adds to what the first has put on the link: its message at most (R170). -/
theorem State.reopened_port {late : List LinkAsk} (hlate : late = [] ∨ late = [.message]) (hwait : s.port.waiting = late) :
    ∃ sent, (sent = [] ∨ sent = [.interrupt]) ∧ (late = [] → sent = []) ∧ s.reopened.port.waiting = [] ∧
      s.reopened.port.sent = s.port.sent ++ sent := by
  rcases hlate with rfl | rfl
  · rw [State.reopened_of_nil hwait]
    exact ⟨[], .inl rfl, fun _ => rfl, rfl, (List.append_nil _).symm⟩
  · simp only [State.reopened, hwait, List.foldl_cons, List.foldl_nil, State.issueAsk]
    split
    · exact ⟨[.interrupt], .inr rfl, fun h => by simp at h, rfl, rfl⟩
    · exact ⟨[], .inl rfl, fun _ => rfl, rfl, (List.append_nil _).symm⟩

/-- A list that waits is put on the link in its order, and a message that its entry calls for follows (R168, R170). -/
theorem State.issueAll_port {l : List LinkAsk} (hone : l.count .entry ≤ 1)
    (hq : .entry ∈ l → u.ring.queue ≠ []) :
    ∃ late, (late = [] ∨ late = [.interrupt]) ∧ (.entry ∉ l → late = []) ∧
      (l.foldl State.issueAsk u.closed).reopened.port.waiting = [] ∧
      (l.foldl State.issueAsk u.closed).reopened.port.sent = u.port.sent ++ u.putsAll u.port.nextId l ++ late := by
  obtain ⟨calls, hcalls, hnone, waiting, sent⟩ := State.issueAsks_port (s := u.closed) rfl hone hq
  obtain ⟨late, hlate, hsilent, done, all⟩ := State.reopened_port hcalls waiting
  have same : State.SameLink l u u.closed := ⟨rfl, rfl, fun _ => rfl, fun _ => rfl⟩
  refine ⟨late, hlate, fun h => hsilent (hnone h), done, ?_⟩
  rw [all, sent, same.putsAll]
  rfl

/-- Settles O26: the enables alone, the issue of each sort of list, and the entry or snapshot that waits alone. -/
theorem waitingReadsAreIssuedInOrder : Obligations.WaitingReadsAreIssuedInOrder := by
  refine fun s b m => ⟨rfl, fun hclosed => ?_, fun hbus => ?_, fun c p hc => ?_⟩
  · have closed : ¬((s.port.busMaster || b) && s.port.linkUp) = true := by simp [hclosed]
    refine congrArg Host.Outcome.next ((if_neg closed).trans ?_)
    show (if (s.port.busMaster || b) = true then _ else _) = _
    split <;> rfl
  · exact congrArg Host.Outcome.next (if_neg (by simp [Port.canIssue, hbus]))
  · intro u
    obtain ⟨issues, hbus, hlink, hwait, hpart, hnext, hsent⟩ := exec_issues hc
    rw [issues]
    refine ⟨fun l hl => ?_, fun hone hq => ?_, fun e q k hl hatt hqueue hcomp hroom => ?_,
      fun addr bytes e x hl hatt hadmin => ?_⟩
    · intro own
      have raster : (fun x : Requester × BitVec 64 × Nat => match x.1 with
          | .raster _ => true
          | .attach => false
          | .admin => false
          | .fetch => false) = fun x => x.1.isRaster := funext fun x => by cases x.1 <;> rfl
      have own_eq : own = (l.filter fun x => x.1.isRaster).length := congrArg (fun f => (l.filter f).length) raster
      rw [hl, State.reads_reopened (u := u) hbus hwait, ← own_eq]
      cases s.raster <;> simp only [u, RasterUnit.issuedMore]
    · obtain ⟨late, hlate, hnone, waiting, sent⟩ := State.issueAll_port (u := u) hone hq
      exact ⟨_, late, rfl, waiting, hlate, hnone, by rw [sent]; simp only [u, hsent, hnext]⟩
    · have opened : u.port.canIssue = true := by simp only [u, Port.canIssue, hbus, hlink, Bool.and_true]
      rw [execCompletionEntryWrite_room (s := u) (hpart.trans hatt) (by simp [u, hqueue]) hcomp (CompRing.room_iff.2 hroom)
        (by simp [u, hwait]), if_pos opened, hl]
      refine congrArg Host.Outcome.next (Eq.trans (congrArg State.reopened (if_pos ?_))
        (State.issueEntry_reopened (u := u) hbus hwait hlink (hpart.trans hatt) hqueue hcomp))
      exact hpart.trans hatt
    · rw [hl, ← hsent]
      exact congrArg Host.Outcome.next (State.issueSnapshot_reopened (u := u) hbus hwait (hpart.trans hatt) hadmin addr bytes)

end Sys2Proof.Machine
end

section
/-!
What one step is, an equation for each form of the queue (log 1).
-/

namespace Sys2Proof.Machine

theorem step_of_pending_nil {s : State} (empty : s.pending = []) : step s = .next s := by
  unfold step
  rw [empty]

theorem step_of_pending_cons {s : State} {c : Instr} {rest : List Instr} (front : s.pending = c :: rest) :
    step s = exec c { s with pending := rest } := by
  unfold step
  rw [front]

/-- Settles O1: the two equations of `step`, by the form of the queue. -/
theorem stepTakesTheFrontCommand : Obligations.StepTakesTheFrontCommand :=
  fun _ _ _ => ⟨step_of_pending_cons, step_of_pending_nil⟩

end Sys2Proof.Machine
end
